-- ==== Sys2Proof/Word.lean ====
section
/-! DEFINITION. The words of the Hexapod Link Core (00_scope.md R10): bytes and the 16- and 32-bit unsigned
integers. There are no signed quantities anywhere in the HLC. -/

namespace Sys2Proof

/-- A byte: 8 bits, an unsigned integer 0 to 255 (R10). -/
abbrev Byte := BitVec 8

/-- A `uint16` (R10). -/
abbrev Half := BitVec 16

/-- A `uint32`, an integer or the bit pattern of an f32 (R10, 20_memory.md R56). -/
abbrev Word := BitVec 32

end Sys2Proof
end

