-- ==== Sys2Proof/Machine/Bytes.lean ====
section
/-! DEFINITION. Byte order and slices (00_scope.md R10, 20_memory.md R53): every multi-byte value is little-endian, in
every space. -/

namespace Sys2Proof.Machine

/-- `lo8(v) = v[7:0]`. -/
def lo8 (v : Half) : Byte := v.extractLsb' 0 8

/-- `hi8(v) = v[15:8]`. -/
def hi8 (v : Half) : Byte := v.extractLsb' 8 8

/-- `le16(lo, hi) = lo | (hi << 8)`. -/
def le16 (lo hi : Byte) : Half := lo.zeroExtend 16 ||| (hi.zeroExtend 16 <<< 8)

/-- `le32(b0, b1, b2, b3) = b0 | (b1 << 8) | (b2 << 16) | (b3 << 24)`. -/
def le32 (b0 b1 b2 b3 : Byte) : Word :=
  b0.zeroExtend 32 ||| (b1.zeroExtend 32 <<< 8) ||| (b2.zeroExtend 32 <<< 16) ||| (b3.zeroExtend 32 <<< 24)

/-- `bytes16(v) = [lo8(v), hi8(v)]`: the less significant byte has the lower index and is sent first (R53). -/
def bytes16 (v : Half) : List Byte := [lo8 v, hi8 v]

/-- `bytes32(v) = [v[7:0], v[15:8], v[23:16], v[31:24]]`. -/
def bytes32 (v : Word) : List Byte :=
  [v.extractLsb' 0 8, v.extractLsb' 8 8, v.extractLsb' 16 8, v.extractLsb' 24 8]

/-- `s[i]` (R10). Every rule tests the length before it reads (20_memory.md R51), so the value past the end is never
used. -/
def byteAt (s : List Byte) (i : Nat) : Byte := s.getD i 0#8

/-- `s[i..j]`, inclusive at both ends, empty when `j < i` (R10, 90_conflicts.md C1). -/
def slice (s : List Byte) (i j : Nat) : List Byte := (s.drop i).take (j + 1 - i)

end Sys2Proof.Machine
end

