-- ==== Sys2Proof/Machine/Crc.lean ====
section
/-! DEFINITION. The CRC unit (40_crc.md): CRC-16/CCITT-FALSE, polynomial 0x1021, initial value 0xFFFF, most significant
bit first, no reflection, no final exclusive or (R120). -/

namespace Sys2Proof.Machine

/-- The generator polynomial, its top term implied (R120). -/
def crcPoly : Half := 0x1021#16

/-- What `CRC_INIT` puts in `CRC_REG` (R121). -/
def crcInit : Half := 0xFFFF#16

/-- One of the eight passes of R122: shift left, and exclusive or with the polynomial when the bit shifted out is 1. -/
def crcShift (c : Half) : Half := if c.msb then (c <<< 1) ^^^ crcPoly else c <<< 1

/-- `CRC_BYTE(b)` on a register value (R122). -/
def crcByte (c : Half) (b : Byte) : Half :=
  let c := c ^^^ (b.zeroExtend 16 <<< 8)
  crcShift (crcShift (crcShift (crcShift (crcShift (crcShift (crcShift (crcShift c)))))))

/-- `k c`, said so that an evaluation has the number of `c` before it goes on (`settle_eq`). -/
def settle {α : Type} (c : Half) (k : Half → α) : α :=
  match c.toNat with
  | 0 => k 0#16
  | n + 1 => k (BitVec.ofNat 16 (n + 1))

/-- `CRC_BYTE` over a sequence of bytes, in order. -/
def crcBytes (c : Half) : List Byte → Half
  | [] => c
  | b :: later => settle (crcByte c b) fun c => crcBytes c later

/-- `CHECKSUM(bytes)` (R124): a pure function of the bytes. -/
def checksum (bs : List Byte) : Half := crcBytes crcInit bs

/-- One bit of the bit-serial form (R123): the form a hardware shift register takes. -/
def crcSerialBit (c : Half) (d : Bool) : Half :=
  if c.msb ^^ d then (c <<< 1) ^^^ crcPoly else c <<< 1

/-- Eight bits of the bit-serial form, bit 7 of the byte first (R123). -/
def crcSerialByte (c : Half) (b : Byte) : Half :=
  [7, 6, 5, 4, 3, 2, 1, 0].foldl (fun c i => crcSerialBit c (b.getLsbD i)) c

end Sys2Proof.Machine
end

