-- ==== Sys2Proof/Config.lean ====
section
/-! DEFINITION. The implementation parameters of 00_scope.md R9 (the straps), the fixed numbers of the protocol, and
the one free value the environment supplies when a run's inputs are used up. -/

namespace Sys2Proof

/-- The side of the link an instance serves (00_scope.md R3). -/
inductive Role
  /-- the initiator of the handshake; the dispatcher is absent -/
  | host
  /-- the responder with the gate latch and the dispatcher -/
  | device
  deriving DecidableEq, Repr

/-- `DISPATCH_VARIANT` (00_scope.md R9, 45_dispatcher.md R265). -/
inductive DispatchVariant
  /-- every command is a framed Packet: the variant the spec takes -/
  | framed
  /-- unframed commands: documented by the spec and refused (R268) -/
  | raw
  deriving DecidableEq, Repr

/-- `WIRE_MODEL` (20_memory.md R59). -/
inductive WireModel
  /-- the queues deliver exactly the bytes sent, in order -/
  | ideal
  /-- the environment may delete, insert or alter queued bytes -/
  | arbitrary
  deriving DecidableEq, Repr

/-- The straps and constants of one instance (00_scope.md R9, 10_state.md R34). No operation writes them. -/
structure Straps where
  /-- `ROLE`, OPEN -/
  role : Role
  /-- `PROTOCOL_VERSION`, OPEN -/
  protocolVersion : Byte
  /-- `DEVICE_ID`, OPEN -/
  deviceId : Byte
  /-- `HS_MAX_ATTEMPTS`, an integer at least 1, value 3 -/
  hsMaxAttempts : Nat
  /-- `HS_RECV_ATTEMPTS`, an integer at least 1, OPEN -/
  hsRecvAttempts : Nat
  /-- `RXBUF_CAP`, an integer at least 260, OPEN -/
  rxbufCap : Nat
  /-- `BYTE_TIMEOUT`, OPEN, read by no rule -/
  byteTimeout : Nat
  /-- `POLL_TIMEOUT`, OPEN, read by no rule -/
  pollTimeout : Nat
  /-- `DISPATCH_VARIANT`, value FRAMED -/
  dispatchVariant : DispatchVariant
  /-- `ACK_SET_COMMANDS`, value false -/
  ackSetCommands : Bool
  /-- `WIRE_MODEL`, OPEN -/
  wireModel : WireModel
  deriving DecidableEq, Repr

/-- The straps `Machine.State.reset` is given. The values R9 fixes are R9's (3, FRAMED, false); those it leaves OPEN
are the example values of 95_test_vectors.md, role DEVICE. DESIGN CHOICE, log 2. -/
def Straps.atReset : Straps :=
  { role := .device, protocolVersion := 0x01#8, deviceId := 0x2A#8, hsMaxAttempts := 3, hsRecvAttempts := 1,
    rxbufCap := 260, byteTimeout := 0, pollTimeout := 0, dispatchVariant := .framed, ackSetCommands := false,
    wireModel := .ideal }

/-- `MAX_PAYLOAD` (00_scope.md R9). -/
abbrev Config.maxPayload : Nat := 252

/-- `NUM_CHANNELS` (00_scope.md R9). -/
abbrev Config.numChannels : Nat := 18

/-- The least capacity of `RXBUF`, and the length of the longest frame (00_scope.md R9, 30_encoding.md R83). -/
abbrev Config.maxFrame : Nat := 260

/-- The angle range in degrees (00_scope.md R9): the actuator's concern, read by no rule. -/
def Config.angleRange : Int × Int := (-45, 45)

/-- What the collaborators return once the inputs listed in the state are used up: any 32-bit value under no law
(60_exceptions.md R314, 93_implementation_defined.md U14). A free value, log 7. -/
opaque Config.freeDraw : Nat → Word

end Sys2Proof
end

