-- ==== Sys2Proof/Syntax.lean ====
section
/-! DEFINITION. The syntax of the instructions: one constructor for each row of spec/opcode_table.json. An instruction
is a frame of one command code; it carries the frame's sequence number and its payload, which the frame layer admits at
every length from 0 to 252 (30_encoding.md R86, 45_dispatcher.md R253). -/

namespace Sys2Proof

/-- The logical message a frame carries (00_scope.md R12). -/
structure Packet where
  sequence : Half
  command : Byte
  payload : List Byte
  deriving DecidableEq, Repr

/-- The instructions: the ten commands of the catalogue (30_encoding.md R95) and the four GET replies, which share
their request's code and are told from it by direction (R111). -/
inductive Instr
  /-- 0x01, host to device -/
  | setAngleCalibrations (seq : Half) (payload : List Byte)
  /-- 0x02, host to device -/
  | setTargetAngle (seq : Half) (payload : List Byte)
  /-- 0x03, host to device -/
  | setPowerRelay (seq : Half) (payload : List Byte)
  /-- 0x04, host to device -/
  | getAngleCalibrations (seq : Half) (payload : List Byte)
  /-- 0x04, device to host -/
  | getAngleCalibrationsReply (seq : Half) (payload : List Byte)
  /-- 0x05, host to device -/
  | getCurrent (seq : Half) (payload : List Byte)
  /-- 0x05, device to host -/
  | getCurrentReply (seq : Half) (payload : List Byte)
  /-- 0x06, host to device -/
  | getVoltage (seq : Half) (payload : List Byte)
  /-- 0x06, device to host -/
  | getVoltageReply (seq : Half) (payload : List Byte)
  /-- 0x07, host to device -/
  | getSensor (seq : Half) (payload : List Byte)
  /-- 0x07, device to host -/
  | getSensorReply (seq : Half) (payload : List Byte)
  /-- 0x10, host to device -/
  | hello (seq : Half) (payload : List Byte)
  /-- 0x11, device to host -/
  | ack (seq : Half) (payload : List Byte)
  /-- 0x12, device to host -/
  | nack (seq : Half) (payload : List Byte)
  deriving DecidableEq, Repr

end Sys2Proof
end

