-- ==== Sys2Proof/Machine/Operation.lean ====
section
/-! DEFINITION. What a client asks of the block and gets back: the operations of 00_scope.md R8, the registers it may
read, the results, and the collaborator calls. Types only. -/

namespace Sys2Proof.Machine

open Sys2Proof

/-- The five states of the host's handshake (10_state.md R28). -/
inductive HsState
  | idle
  | awaitingResponse
  | accepted
  | rejected
  | timedOut
  deriving DecidableEq, Repr

/-- Why the last attempt did not end in `Accepted` (10_state.md R30). -/
inductive HsReason
  | none
  | nackCode
  | nackEmpty
  | ackShort
  | ackVersion
  | ackStatus
  | unexpectedCmd
  | noResponse
  deriving DecidableEq, Repr

/-- The result of session establishment (10_state.md R32). -/
inductive Session
  | none
  | established
  | failed
  deriving DecidableEq, Repr

/-- The registers a client reads (10_state.md R20, R24, R26, R28 to R33). `CRC_REG` and `RXBUF` are read by operations
of the block only (R21, R22), `HS_LATCH` by `DEV_POLL` only (R25). -/
inductive Reg
  | pktValid
  | pktSeq
  | pktCmd
  | pktPlen
  | pktPayload
  | xerr
  | peerVersion
  | peerCaps
  | hsState
  | attempt
  | hsReason
  | hsErrcode
  | peerVer
  | peerStatus
  | peerId
  | session
  deriving DecidableEq, Repr

/-- The value of a register as the client sees it. -/
inductive RegValue
  | bit (v : Bool)
  | byte (v : Byte)
  | half (v : Half)
  | bytes (v : List Byte)
  | count (v : Nat)
  | hsState (v : HsState)
  | hsReason (v : HsReason)
  | session (v : Session)
  deriving DecidableEq, Repr

/-- The operations of the block (00_scope.md R8), with the operands the client supplies, and the client's read of a
register. -/
inductive Op
  /-- 40_crc.md R121 -/
  | crcInit
  /-- 40_crc.md R122 -/
  | crcByte (b : Byte)
  /-- 40_crc.md R124 -/
  | checksum (bytes : List Byte)
  /-- 41_frame_encoder.md R135 -/
  | encode (seq : Half) (cmd : Byte) (payload : List Byte)
  /-- 42_stream_decoder.md R150 -/
  | rxAppend (b : Byte)
  /-- 42_stream_decoder.md R151 -/
  | tryDecode
  /-- 43_transport.md R180 -/
  | sendU8 (v : Byte)
  /-- 43_transport.md R181 -/
  | sendU16 (v : Half)
  /-- 43_transport.md R182 -/
  | sendU32 (v : Word)
  /-- 43_transport.md R183 -/
  | recvU8
  /-- 43_transport.md R184 -/
  | recvU16
  /-- 43_transport.md R185 -/
  | recvU32
  /-- 43_transport.md R186 -/
  | sendPacket (seq : Half) (cmd : Byte) (payload : List Byte)
  /-- 43_transport.md R187 -/
  | recvPacket
  /-- 44_handshake.md R212 -/
  | hsAttempt (seq : Half) (caps : Byte)
  /-- 44_handshake.md R215 -/
  | hsEstablish (seqs : List Half) (caps : Byte)
  /-- 45_dispatcher.md R250 -/
  | devPoll
  /-- the client reads a register (10_state.md R20) -/
  | readReg (r : Reg)
  deriving DecidableEq, Repr

/-- What an operation returns to the client (00_scope.md R11). -/
inductive Result
  /-- no operation has returned yet -/
  | none
  /-- an operation with no result has ended -/
  | done
  /-- `Ok` of `SEND_PACKET` (R186) -/
  | ok
  /-- `ENC_TOO_LONG` (41_frame_encoder.md R136) -/
  | encTooLong
  /-- the bytes of `ENCODE` -/
  | bytes (bs : List Byte)
  /-- the value of `RECV_U8` -/
  | u8 (v : Byte)
  /-- the value of `CHECKSUM` or `RECV_U16` -/
  | u16 (v : Half)
  /-- the value of `RECV_U32` -/
  | u32 (v : Word)
  /-- `Fail` of a scalar receive (R183) -/
  | fail
  /-- a Packet -/
  | packet (p : Packet)
  /-- `None` of `TRY_DECODE`, `NoPacket` of `RECV_PACKET` -/
  | noPacket
  /-- a register read -/
  | register (v : RegValue)
  deriving DecidableEq, Repr

/-- What an instance does to the outside, recorded in the order it does it (20_memory.md R61, 60_exceptions.md R314): the
collaborator calls (60_exceptions.md R311 to R313) and each `Transport.send`. -/
inductive Event
  | setCalibration (channel : Nat) (minPulse maxPulse : Half)
  | setTarget (channel : Byte) (angle : Half)
  | getCalibration (channel : Nat)
  | sensorCurrent
  | sensorVoltage
  | sensorRead (channel : Byte)
  | relaySet (flag : Bool)
  /-- a `Transport.send` of `count` bytes, the next of what was sent (20_memory.md R57) -/
  | sent (count : Nat)
  deriving DecidableEq, Repr

/-- The handlers of the routing table (45_dispatcher.md R251). -/
inductive Handler
  | setAngleCalibrations
  | setTargetAngle
  | setPowerRelay
  | getAngleCalibrations
  | getCurrent
  | getVoltage
  | getSensor
  | hello
  deriving DecidableEq, Repr

/-- What `HS_ESTABLISH` still has to do after the attempt in progress (44_handshake.md R215): the sequence numbers of
the attempts to come, and the capability byte. -/
structure Retry where
  seqs : List Half
  caps : Byte
  deriving DecidableEq, Repr

/-- The width of a scalar receive in progress. -/
inductive Scalar
  | u8
  | u16
  | u32
  deriving DecidableEq, Repr

/-- Who runs the `RECV_PACKET` in progress. -/
inductive Caller
  /-- the client itself -/
  | client
  /-- `DEV_POLL` -/
  | devPoll
  /-- `HS_ATTEMPT`: how many of its `HS_RECV_ATTEMPTS` are left, the one in progress included, and, inside
  `HS_ESTABLISH`, what follows the attempt -/
  | handshake (left : Nat) (retry : Option Retry)
  deriving DecidableEq, Repr

/-- The operation in progress: where in its pseudocode an operation stands that waits for a `Transport.recv`
(00_scope.md R7, 20_memory.md R58). The model's own, log 1. -/
inductive Activity
  /-- no operation in progress -/
  | idle
  /-- a scalar receive, with the bytes already taken (43_transport.md R183 to R185) -/
  | scalar (width : Scalar) (got : List Byte)
  /-- the loop of `RECV_PACKET` (43_transport.md R187) -/
  | packet (who : Caller)
  deriving DecidableEq, Repr

end Sys2Proof.Machine
end

