-- ==== Sys2Proof/Machine/Packet.lean ====
section
/-! DEFINITION. The command map (30_encoding.md R95, R111) and the routing table (45_dispatcher.md R251): which
instruction a Packet is, by its command byte and the side it arrives at, and which Packet an instruction is. -/

namespace Sys2Proof

/-! The command codes ("stable identifiers, value = wire byte", R95). -/

abbrev Cmd.setAngleCalibrations : Byte := 0x01#8
abbrev Cmd.setTargetAngle : Byte := 0x02#8
abbrev Cmd.setPowerRelay : Byte := 0x03#8
abbrev Cmd.getAngleCalibrations : Byte := 0x04#8
abbrev Cmd.getCurrent : Byte := 0x05#8
abbrev Cmd.getVoltage : Byte := 0x06#8
abbrev Cmd.getSensor : Byte := 0x07#8
abbrev Cmd.hello : Byte := 0x10#8
abbrev Cmd.ack : Byte := 0x11#8
abbrev Cmd.nack : Byte := 0x12#8

/-! Status and error codes (R106, R107). -/

abbrev Code.statusOk : Byte := 0x00#8
abbrev Code.statusBusy : Byte := 0x01#8
abbrev Code.timeout : Byte := 0xA1#8
abbrev Code.versionMismatch : Byte := 0xA2#8

/-- The Packet that an instruction is: its sequence number, its command byte by the catalogue (R95; a GET reply has its
request's code, R111), its payload. -/
def Instr.toPacket : Instr → Packet
  | .setAngleCalibrations seq p => ⟨seq, Cmd.setAngleCalibrations, p⟩
  | .setTargetAngle seq p => ⟨seq, Cmd.setTargetAngle, p⟩
  | .setPowerRelay seq p => ⟨seq, Cmd.setPowerRelay, p⟩
  | .getAngleCalibrations seq p => ⟨seq, Cmd.getAngleCalibrations, p⟩
  | .getAngleCalibrationsReply seq p => ⟨seq, Cmd.getAngleCalibrations, p⟩
  | .getCurrent seq p => ⟨seq, Cmd.getCurrent, p⟩
  | .getCurrentReply seq p => ⟨seq, Cmd.getCurrent, p⟩
  | .getVoltage seq p => ⟨seq, Cmd.getVoltage, p⟩
  | .getVoltageReply seq p => ⟨seq, Cmd.getVoltage, p⟩
  | .getSensor seq p => ⟨seq, Cmd.getSensor, p⟩
  | .getSensorReply seq p => ⟨seq, Cmd.getSensor, p⟩
  | .hello seq p => ⟨seq, Cmd.hello, p⟩
  | .ack seq p => ⟨seq, Cmd.ack, p⟩
  | .nack seq p => ⟨seq, Cmd.nack, p⟩

/-- The side an instruction can arrive at, by its direction. A GET request arrives at a device and its reply at a host;
the other codes have one row, and are that instruction wherever they arrive (30_encoding.md R108 (e), (f)). -/
def Instr.arrivesAt (r : Role) : Instr → Bool
  | .setAngleCalibrations _ _ => true
  | .setTargetAngle _ _ => true
  | .setPowerRelay _ _ => true
  | .getAngleCalibrations _ _ => r == .device
  | .getAngleCalibrationsReply _ _ => r == .host
  | .getCurrent _ _ => r == .device
  | .getCurrentReply _ _ => r == .host
  | .getVoltage _ _ => r == .device
  | .getVoltageReply _ _ => r == .host
  | .getSensor _ _ => r == .device
  | .getSensorReply _ _ => r == .host
  | .hello _ _ => true
  | .ack _ _ => true
  | .nack _ _ => true

/-- Request at a device, reply at a host: the four codes that two rows share (R111). -/
def byDirection (r : Role) (request reply : Instr) : Instr :=
  match r with
  | .device => request
  | .host => reply

/-- The routing table (45_dispatcher.md R251): "dispatch by exact code match". All 8 bits take part; a code outside the
catalogue is no instruction. -/
def Instr.ofPacket (r : Role) (p : Packet) : Option Instr :=
  if p.command = Cmd.setAngleCalibrations then some (.setAngleCalibrations p.sequence p.payload)
  else if p.command = Cmd.setTargetAngle then some (.setTargetAngle p.sequence p.payload)
  else if p.command = Cmd.setPowerRelay then some (.setPowerRelay p.sequence p.payload)
  else if p.command = Cmd.getAngleCalibrations then
    some (byDirection r (.getAngleCalibrations p.sequence p.payload) (.getAngleCalibrationsReply p.sequence p.payload))
  else if p.command = Cmd.getCurrent then
    some (byDirection r (.getCurrent p.sequence p.payload) (.getCurrentReply p.sequence p.payload))
  else if p.command = Cmd.getVoltage then
    some (byDirection r (.getVoltage p.sequence p.payload) (.getVoltageReply p.sequence p.payload))
  else if p.command = Cmd.getSensor then
    some (byDirection r (.getSensor p.sequence p.payload) (.getSensorReply p.sequence p.payload))
  else if p.command = Cmd.hello then some (.hello p.sequence p.payload)
  else if p.command = Cmd.ack then some (.ack p.sequence p.payload)
  else if p.command = Cmd.nack then some (.nack p.sequence p.payload)
  else none

/-- The payload length the catalogue gives a code at the side it is sent to (R95 to R105). -/
def catalogueLength (r : Role) (command : Byte) : Nat :=
  if command = Cmd.setAngleCalibrations then 72
  else if command = Cmd.setTargetAngle then 3
  else if command = Cmd.setPowerRelay then 1
  else if command = Cmd.getAngleCalibrations then (match r with | .device => 0 | .host => 144)
  else if command = Cmd.getCurrent then (match r with | .device => 0 | .host => 4)
  else if command = Cmd.getVoltage then (match r with | .device => 0 | .host => 4)
  else if command = Cmd.getSensor then (match r with | .device => 1 | .host => 4)
  else if command = Cmd.hello then 2
  else if command = Cmd.ack then 3
  else if command = Cmd.nack then 1
  else 0

end Sys2Proof
end

