-- ==== Sys2Proof/WellFormed.lean ====
section
/-! DEFINITION. Which terms are well formed: a Packet and an instruction by the payload bound of the frame, the straps
by the ranges of 00_scope.md R9, an operation by the type of its operands. -/

namespace Sys2Proof

/-- "payload: bytes(0..=252)" (00_scope.md R12, 30_encoding.md R86). -/
def Packet.wf (p : Packet) : Bool := p.payload.length ≤ Config.maxPayload

/-- An instruction is a Packet the frame can carry. -/
def Instr.wf (i : Instr) : Bool := i.toPacket.wf

/-- The payload has exactly the length the catalogue gives the instruction (30_encoding.md R95). The handlers are also
defined on the other lengths (45_dispatcher.md R253). -/
def Instr.catalogued (r : Role) (i : Instr) : Bool :=
  i.toPacket.payload.length == catalogueLength r i.toPacket.command

/-- The ranges R9 gives the integer parameters. -/
def Straps.wf (c : Straps) : Bool :=
  (1 ≤ c.hsMaxAttempts) && (1 ≤ c.hsRecvAttempts) && (Config.maxFrame ≤ c.rxbufCap)

/-- `HS_ESTABLISH` takes one sequence number for each attempt (44_handshake.md R215); every other operation is defined
on all its operands (`ENCODE` answers `ENC_TOO_LONG`, R136). -/
def Machine.Op.wf (c : Straps) : Machine.Op → Bool
  | .crcInit => true
  | .crcByte _ => true
  | .checksum _ => true
  | .encode _ _ _ => true
  | .rxAppend _ => true
  | .tryDecode => true
  | .sendU8 _ => true
  | .sendU16 _ => true
  | .sendU32 _ => true
  | .recvU8 => true
  | .recvU16 => true
  | .recvU32 => true
  | .sendPacket _ _ _ => true
  | .recvPacket => true
  | .hsAttempt _ _ => true
  | .hsEstablish seqs _ => seqs.length == c.hsMaxAttempts
  | .devPoll => true
  | .readReg _ => true

end Sys2Proof
end

