-- ==== Sys2Proof/Decode.lean ====
section
/-! DEFINITION. The frame (30_encoding.md R80 to R90): one pass of the stream decoder's loop over bytes
(42_stream_decoder.md R152), the whole loop, the decoder of instructions built on the pass, and, after them, the frame
encoder (41_frame_encoder.md R135). All lengths and indices are `Nat`, so none wraps (R168). -/

namespace Sys2Proof

open Sys2Proof.Machine

/-- STX, a marker, not escaped (R88). -/
abbrev Frame.stx : Byte := 0x7E#8

/-- ETX (R88). -/
abbrev Frame.etx : Byte := 0x7F#8

/-- Why the bytes at the front of the buffer are not a frame: the tests of R152, in its order. -/
inductive FrameReject
  /-- nothing is buffered (R160): wait -/
  | noBytes
  /-- step 1 (R153): the first byte is not STX -/
  | notStx
  /-- step 2 (R154): fewer than 8 bytes: wait -/
  | tooFewBytes
  /-- step 3 (R155): LEN is 0, 1 or 2 -/
  | badLength
  /-- step 4 (R156): fewer than `frame_size` bytes: wait -/
  | frameIncomplete
  /-- step 5 (R157): no ETX at `frame_size - 1` -/
  | badTrailer
  /-- step 6 (R158): the checksum differs -/
  | badChecksum
  deriving DecidableEq, Repr

/-- How one pass of the loop ends. `crc` is the checksum the pass computed, if it did. -/
inductive Pass
  /-- `return None`, nothing consumed -/
  | wait (why : FrameReject)
  /-- `DropFront(1); restart` -/
  | drop (why : FrameReject) (crc : Option Half)
  /-- `DropFront(size); return Some(p)` -/
  | accept (p : Packet) (size : Nat) (crc : Half)
  deriving DecidableEq, Repr

/-- One pass of the loop of R152, its tests in exactly that order. -/
def pass : List Byte → Pass
  | [] => .wait .noBytes
  | b :: rest =>
    let buf := b :: rest
    if b ≠ Frame.stx then .drop .notStx none
    else if buf.length < 8 then .wait .tooFewBytes
    else
      let len := (byteAt buf 1).toNat
      if len < 3 then .drop .badLength none
      else if buf.length < len + 5 then .wait .frameIncomplete
      else if byteAt buf (len + 4) ≠ Frame.etx then .drop .badTrailer none
      else
        let c := checksum (slice buf 1 (len + 1))
        if c ≠ le16 (byteAt buf (len + 2)) (byteAt buf (len + 3)) then .drop .badChecksum (some c)
        else
          .accept { sequence := le16 (byteAt buf 2) (byteAt buf 3), command := byteAt buf 4,
                    payload := slice buf 5 (len + 1) } (len + 5) c

/-- What a whole `TRY_DECODE` gives: its result, the bytes left in `RXBUF`, and `CRC_REG`. -/
structure Scan where
  packet : Option Packet
  rest : List Byte
  crc : Half
  deriving DecidableEq, Repr

/-- The loop of R152: every rejection drops exactly one byte (R161), so the loop is a recursion on the buffer. `crc` is
`CRC_REG`: every use of the register starts with `CRC_INIT` and leaves it at the checksum computed (R124). -/
def scan (crc : Half) : List Byte → Scan
  | [] => ⟨none, [], crc⟩
  | b :: rest =>
    match pass (b :: rest) with
    | .wait _ => ⟨none, b :: rest, crc⟩
    | .drop _ c => scan (c.getD crc) rest
    | .accept p size c => ⟨some p, (b :: rest).drop size, c⟩

/-- Why bytes are no instruction. -/
inductive DecodeReject
  /-- they do not begin with a valid frame -/
  | frame (why : FrameReject)
  /-- a valid frame whose command code is outside the catalogue (30_encoding.md R108 (d)) -/
  | unassigned (command : Byte)
  deriving DecidableEq, Repr

/-- The decoder's answer: the instruction with the bytes behind its frame, or why there is none. -/
inductive Decoded
  | instr (i : Instr) (rest : List Byte)
  | rejected (why : DecodeReject)
  deriving DecidableEq, Repr

/-- The instruction at the front of the bytes, at the side `r` of the link (the direction tells a GET reply from its
request, 30_encoding.md R111). Total on any bytes. -/
def decode (r : Role) (bs : List Byte) : Decoded :=
  match pass bs with
  | .wait why => .rejected (.frame why)
  | .drop why _ => .rejected (.frame why)
  | .accept p size _ =>
    match Instr.ofPacket r p with
    | some i => .instr i (bs.drop size)
    | none => .rejected (.unassigned p.command)

/-! The encoder. -/

/-- The bytes the checksum covers: LEN, SEQ_LO, SEQ_HI, CMD, PAYLOAD (30_encoding.md R81, 40_crc.md R125). LEN counts
the sequence, the command and the payload (R82). -/
def frameBody (seq : Half) (cmd : Byte) (payload : List Byte) : List Byte :=
  BitVec.ofNat 8 (3 + payload.length) :: (bytes16 seq ++ (cmd :: payload))

/-- The frame (R81), its checksum sent low byte first (R87). -/
def frameBytes (seq : Half) (cmd : Byte) (payload : List Byte) : List Byte :=
  Frame.stx :: (frameBody seq cmd payload ++ (bytes16 (checksum (frameBody seq cmd payload)) ++ [Frame.etx]))

/-- `ENCODE` (41_frame_encoder.md R135); `none` is `ENC_TOO_LONG` (R136): no truncation, no wrapped LEN. -/
def encodeFrame (seq : Half) (cmd : Byte) (payload : List Byte) : Option (List Byte) :=
  if payload.length ≤ Config.maxPayload then some (frameBytes seq cmd payload) else none

/-- The bytes of an instruction; `none` for one that is not well formed. -/
def encode (i : Instr) : Option (List Byte) :=
  encodeFrame i.toPacket.sequence i.toPacket.command i.toPacket.payload

/-! The words of spec/opcode_table.json. The table numbers a row's bits from CMD on (its "match_field"), so the first
byte of a table word is CMD and the bytes after it are payload; the frame around them has sequence number 0 and the LEN,
CRC and markers the frame layout gives. The payload is filled with zero bytes up to the length the catalogue gives the
code. Log 15. -/

/-- `n` bytes of a number, the least significant first. -/
def bytesOfNat : Nat → Nat → List Byte
  | 0, _ => []
  | n + 1, w => BitVec.ofNat 8 w :: bytesOfNat n (w / 256)

/-- The frame of a table word, as it lies on the wire. -/
def frameOfTableWord (r : Role) (nbits w : Nat) : List Byte :=
  let cmd : Byte := BitVec.ofNat 8 w
  frameBytes 0#16 cmd
    (bytesOfNat (min Config.maxPayload (max (nbits / 8 - 1) (catalogueLength r cmd))) (w % 2 ^ nbits / 256))

/-- The instruction a table word decodes to at a device, the side that routes commands (45_dispatcher.md R251). -/
def decodeTableWord (nbits w : Nat) : Option Instr :=
  match decode .device (frameOfTableWord .device nbits w) with
  | .instr i _ => some i
  | .rejected _ => none

end Sys2Proof
end

