-- ==== Sys2Proof/Machine/State.lean ====
section
/-! DEFINITION. The state of one HLC instance (10_state.md R20), its faults and refusals, and the state after reset
(R37, 70_reset_and_hazards.md R330). -/

namespace Sys2Proof.Machine

open Sys2Proof

/-- Why a step stops with a fault. The HLC has no traps (60_exceptions.md R300); this is the model's only fault. -/
inductive Fault
  /-- Raised by the client's register read (`execReadReg`) on a register the spec calls unspecified at that moment:
  `PKT_SEQ`, `PKT_CMD`, `PKT_PLEN`, `PKT_PAYLOAD` while `PKT_VALID` = 0, `HS_ERRCODE` while `HS_REASON` is not
  `NACK_CODE` (10_state.md R24, R30, 93_implementation_defined.md U12). Safe: the spec says such a read must not be
  made. -/
  | unspecifiedRead (r : Reg)
  deriving DecidableEq, Repr

/-- Why a step is refused: there is no such step in the spec. -/
inductive Refusal
  /-- Raised by an arm of `exec` whose instruction has no meaning yet. Safe. -/
  | notModelled (mnemonic : String)
  /-- Raised at every step and every instruction of an instance whose `DISPATCH_VARIANT` is RAW (45_dispatcher.md R265: "a
  model refuses `RAW`"). Safe. -/
  | rawVariant
  /-- Raised at every step when the straps are outside the ranges of 00_scope.md R9. Safe: no such hardware. -/
  | illFormedStraps
  /-- Raised when an operation or a register of a unit is asked of the role that does not have the unit (00_scope.md
  R3, 10_state.md R20). Safe. -/
  | wrongRole
  /-- Raised by `RX_APPEND` on a full buffer (20_memory.md R66, 42_stream_decoder.md R150: "a model gives it no step").
  Safe. -/
  | rxbufFull
  /-- Raised by `HS_ESTABLISH` when its list does not have `HS_MAX_ATTEMPTS` values (44_handshake.md R215). Safe. -/
  | illFormedOperand
  /-- Raised by `Link` when the environment would alter the bytes of a wire whose model is `ideal` (20_memory.md R59).
  Safe. -/
  | idealWire
  deriving DecidableEq, Repr

/-- One HLC instance and its environment. The registers of both roles are held; an instance uses those of its own
(R20, log 16). -/
structure State where
  /-- the straps and constants (R34); written by no step -/
  straps : Straps
  /-- `RXBUF` (R22), element 0 the oldest byte -/
  rxbuf : List Byte
  /-- `CRC_REG` (R21) -/
  crcReg : Half
  /-- `PKT_VALID` (R24, R33) -/
  pktValid : Bool
  /-- `PKT_SEQ` (R24) -/
  pktSeq : Half
  /-- `PKT_CMD` (R24) -/
  pktCmd : Byte
  /-- `PKT_PLEN` (R24) -/
  pktPlen : Byte
  /-- `PKT_PAYLOAD` (R24), 252 bytes -/
  pktPayload : List Byte
  /-- `XERR` (R33) -/
  xerr : Bool
  /-- `HS_LATCH` (R25), role DEVICE -/
  hsLatch : Bool
  /-- `PEER_VERSION` (R26), role DEVICE -/
  peerVersion : Byte
  /-- `PEER_CAPS` (R26), role DEVICE -/
  peerCaps : Byte
  /-- `HS_STATE` (R28), role HOST -/
  hsState : HsState
  /-- `ATTEMPT` (R29), role HOST -/
  attempt : Nat
  /-- `HS_REASON` (R30), role HOST -/
  hsReason : HsReason
  /-- `HS_ERRCODE` (R30), role HOST -/
  hsErrcode : Byte
  /-- `PEER_VER` (R31), role HOST -/
  peerVer : Byte
  /-- `PEER_STATUS` (R31), role HOST -/
  peerStatus : Byte
  /-- `PEER_ID` (R31), role HOST -/
  peerId : Byte
  /-- `SESSION` (R32), role HOST -/
  session : Session
  /-- the model's own: the operation in progress (log 1) -/
  activity : Activity
  /-- the model's own: the operations the client still asks for, oldest first (log 8) -/
  ops : List Op
  /-- the model's own: what the last operation returned (log 8) -/
  result : Result
  /-- the environment: the bytes queued for this instance (20_memory.md R57), oldest first -/
  wireIn : List Byte
  /-- the environment, a free value: its answers to the coming `Transport.recv` actions, `true` for `Timeout`; when
  none is listed a queued byte is delivered (R58, log 6) -/
  timeouts : List Bool
  /-- the environment: the bytes this instance has sent, oldest first (R57) -/
  wireOut : List Byte
  /-- the environment, a free value: what the collaborators will return (60_exceptions.md R314, log 7) -/
  draws : List Word
  /-- the model's own: how many values beyond `draws` have been drawn from `Config.freeDraw` (log 7) -/
  drawCount : Nat
  /-- the collaborator calls made and the sends, oldest first (60_exceptions.md R314, 20_memory.md R61) -/
  events : List Event
  deriving DecidableEq, Repr

/-- The state after power-on reset of an instance with the given straps (10_state.md R37, 70_reset_and_hazards.md R330).
The registers the table calls unspecified are 0: DESIGN CHOICE, log 3. -/
def State.resetWith (c : Straps) : State :=
  { straps := c
    rxbuf := []
    crcReg := 0xFFFF#16
    pktValid := false
    pktSeq := 0#16
    pktCmd := 0#8
    pktPlen := 0#8
    pktPayload := List.replicate 252 0#8
    xerr := false
    hsLatch := false
    peerVersion := 0#8
    peerCaps := 0#8
    hsState := .idle
    attempt := 0
    hsReason := .none
    hsErrcode := 0#8
    peerVer := 0#8
    peerStatus := 0#8
    peerId := 0#8
    session := .none
    activity := .idle
    ops := []
    result := .none
    wireIn := []
    timeouts := []
    wireOut := []
    draws := []
    drawCount := 0
    events := [] }

/-- The state after reset, for the straps of `Straps.atReset` (DESIGN CHOICE, log 2). -/
def State.reset : State := State.resetWith Straps.atReset

end Sys2Proof.Machine
end

