-- ==== Sys2Proof/Machine/Flags.lean ====
section
/-! DEFINITION. The two result flags `PKT_VALID` and `XERR` (10_state.md R33) and the holding registers that
`PKT_VALID` guards (R24). There are no condition codes. -/

namespace Sys2Proof.Machine

open Sys2Proof

/-- `XERR <- v` (R33). -/
def State.setXerr (v : Bool) (s : State) : State := { s with xerr := v }

/-- The holding registers take a Packet (R24, 42_stream_decoder.md R151): `PKT_PAYLOAD` takes the payload in its first
`PKT_PLEN` bytes; its other bytes keep what they held (log 5). -/
def State.holdPacket (p : Packet) (s : State) : State :=
  { s with
    pktValid := true
    pktSeq := p.sequence
    pktCmd := p.command
    pktPlen := BitVec.ofNat 8 p.payload.length
    pktPayload := p.payload ++ s.pktPayload.drop p.payload.length }

/-- `PKT_VALID <- 0` (R151); the four registers it guards are then unspecified and their read is a fault (log 4, 5). -/
def State.holdNone (s : State) : State := { s with pktValid := false }

/-- The Packet the holding registers present; none while `PKT_VALID` = 0 (R24). -/
def State.heldPacket (s : State) : Option Packet :=
  if s.pktValid then some ⟨s.pktSeq, s.pktCmd, s.pktPayload.take s.pktPlen.toNat⟩ else none

end Sys2Proof.Machine
end

