-- ==== Sys2Proof/Machine/Operands.lean ====
section
/-! DEFINITION. The operands a payload holds, for every command (30_encoding.md R90, R96 to R105), and the payloads the
block sends. Multi-byte fields are little-endian and zero-extended; nothing is signed, scaled or shifted (R90). -/

namespace Sys2Proof.Machine

open Sys2Proof

/-- A `u8` at payload offset `k` (R90). -/
def payloadU8 (p : List Byte) (k : Nat) : Byte := byteAt p k

/-- A `u16` at payload offset `k`: `le16(payload[k], payload[k+1])` (R90). -/
def payloadU16 (p : List Byte) (k : Nat) : Half := le16 (byteAt p k) (byteAt p (k + 1))

/-- A 32-bit value at payload offset `k` (R90). -/
def payloadU32 (p : List Byte) (k : Nat) : Word :=
  le32 (byteAt p k) (byteAt p (k + 1)) (byteAt p (k + 2)) (byteAt p (k + 3))

/-- HELLO: `version`, none when the payload is empty (R96, 44_handshake.md R217). -/
def helloVersion (p : List Byte) : Option Byte := p[0]?

/-- HELLO: `capabilities`, none when the payload is shorter than 2 (R96, R217). -/
def helloCaps (p : List Byte) : Option Byte := p[1]?

/-- ACK: `version`, `status`, `device_id`; none when the payload is shorter than 3 (R97, R213). -/
def ackFields (p : List Byte) : Option (Byte × Byte × Byte) :=
  if p.length < 3 then none else some (payloadU8 p 0, payloadU8 p 1, payloadU8 p 2)

/-- NACK: `error_code`, none when the payload is empty (R98, R213). -/
def nackCode (p : List Byte) : Option Byte := p[0]?

/-- SET_ANGLE_CALIBRATIONS: `min_pulse[c]` (R99). -/
def minPulse (p : List Byte) (c : Nat) : Half := payloadU16 p (4 * c)

/-- SET_ANGLE_CALIBRATIONS: `max_pulse[c]` (R99). -/
def maxPulse (p : List Byte) (c : Nat) : Half := payloadU16 p (4 * c + 2)

/-- SET_TARGET_ANGLE: `channel` (R100). -/
def targetChannel (p : List Byte) : Byte := payloadU8 p 0

/-- SET_TARGET_ANGLE: `angle` (R100). -/
def targetAngle (p : List Byte) : Half := payloadU16 p 1

/-- SET_POWER_RELAY: `value` as the boolean the relay takes; none for 2 to 255, "other values ignored" (R101). -/
def relayFlag (p : List Byte) : Option Bool :=
  if payloadU8 p 0 = 0#8 then some false else if payloadU8 p 0 = 1#8 then some true else none

/-- GET_SENSOR: `channel`, any value (R105). -/
def sensorChannel (p : List Byte) : Byte := payloadU8 p 0

/-- GET_ANGLE_CALIBRATIONS reply: the `min` pattern of channel `c` (R102). -/
def replyMin (p : List Byte) (c : Nat) : Word := payloadU32 p (8 * c)

/-- GET_ANGLE_CALIBRATIONS reply: the `max` pattern of channel `c` (R102). -/
def replyMax (p : List Byte) (c : Nat) : Word := payloadU32 p (8 * c + 4)

/-- GET_CURRENT, GET_VOLTAGE and GET_SENSOR replies: the 32-bit pattern (R103 to R105). -/
def replyValue (p : List Byte) : Word := payloadU32 p 0

/-- The payload bytes each handler needs (45_dispatcher.md R253). -/
def need (command : Byte) : Nat :=
  if command = Cmd.setAngleCalibrations then 72
  else if command = Cmd.setTargetAngle then 3
  else if command = Cmd.setPowerRelay then 1
  else if command = Cmd.getSensor then 1
  else 0

/-- The payload of every ACK the device sends: `[PROTOCOL_VERSION, STATUS_OK, DEVICE_ID]` (44_handshake.md R217,
45_dispatcher.md R254). -/
def ackPayload (c : Straps) : List Byte := [c.protocolVersion, Code.statusOk, c.deviceId]

/-- The payload of the NACK the device sends (R217). -/
def nackPayload : List Byte := [Code.versionMismatch]

/-- The payload of the HELLO the host sends (44_handshake.md R211). -/
def helloPayload (c : Straps) (caps : Byte) : List Byte := [c.protocolVersion, caps]

end Sys2Proof.Machine
end

