-- ==== Sys2Proof/Machine/Ops.lean ====
section
/-! DEFINITION. The shared operations over the receive buffer, the wire, the registers and the collaborators, and the
four error classes. The HLC takes no exceptions and returns from none (60_exceptions.md R300, R301): an error has
exactly the state effect its class gives it, and nothing is saved or entered. -/

namespace Sys2Proof.Machine

open Sys2Proof Host

/-! The receive buffer (20_memory.md R50 to R52, R65, R66). -/

/-- The form a buffer keeps: at most `RXBUF_CAP` bytes (10_state.md R38 (a)). A buffer is a list of bytes, so equal
buffers are equal data (log 9). -/
def Memory.wf (cap : Nat) (m : List Byte) : Bool := m.length ≤ cap

/-- `MemRead(i, n)` (00_scope.md R11): `n` bytes from index `i` as a little-endian unsigned integer, defined only when
`i + n <= len(RXBUF)`. -/
def Memory.read (m : List Byte) (i n : Nat) : Option Nat :=
  if i + n ≤ m.length then some (((m.drop i).take n).foldr (fun b acc => b.toNat + 256 * acc) 0) else none

/-- `Append(b)` (R11, R52), refused on a full buffer (R66). -/
def Memory.append (cap : Nat) (m : List Byte) (b : Byte) : Option (List Byte) :=
  if m.length < cap then some (m ++ [b]) else none

/-- `DropFront(n)` (R11, R52), defined only when `n <= len(RXBUF)`. -/
def Memory.dropFront (m : List Byte) (n : Nat) : Option (List Byte) :=
  if n ≤ m.length then some (m.drop n) else none

/-- `RX_APPEND(b)` on the state (42_stream_decoder.md R150): it writes `RXBUF` only. -/
def appendByte (b : Byte) (s : State) : Outcome State Fault Refusal :=
  match Memory.append s.straps.rxbufCap s.rxbuf b with
  | some m => .next { s with rxbuf := m }
  | none => .refused .rxbufFull

/-- `TRY_DECODE` on the state (R151, R152): its result, and `RXBUF`, `CRC_REG` and the holding registers after it. It
never writes `XERR`. -/
def tryDecode (s : State) : Option Packet × State :=
  let r := scan s.crcReg s.rxbuf
  let s := { s with rxbuf := r.rest, crcReg := r.crc }
  match r.packet with
  | some p => (some p, s.holdPacket p)
  | none => (none, s.holdNone)

/-! The wire (20_memory.md R57 to R59). -/

/-- What `Transport.recv` yields (R58). -/
inductive Received
  | byte (b : Byte)
  | timeout
  deriving DecidableEq, Repr

/-- `Transport.recv()` (R58): `Timeout` is possible in every state and removes nothing; `Byte(b)` removes the oldest
byte of the queue. Which one happens is the environment's answer, `timeouts`. -/
def recv (s : State) : Received × State :=
  match s.timeouts with
  | true :: later => (.timeout, { s with timeouts := later })
  | answers =>
    match s.wireIn with
    | [] => (.timeout, { s with timeouts := answers.tail })
    | b :: queue => (.byte b, { s with wireIn := queue, timeouts := answers.tail })

/-- `Transport.send(bytes)` (R57): all bytes, in order, in one action; it cannot fail. The action takes its place among
the collaborator calls (R61). -/
def transmit (bs : List Byte) (s : State) : State :=
  { s with wireOut := s.wireOut ++ bs, events := s.events ++ [.sent bs.length] }

/-- `SEND_PACKET` (43_transport.md R186) of a payload the frame can carry; a longer one is `ENC_TOO_LONG`, which sends
nothing and changes no state (41_frame_encoder.md R136). `CRC_REG` is left at the frame's checksum (10_state.md
R21). -/
def sendPacket (seq : Half) (cmd : Byte) (payload : List Byte) (s : State) : State :=
  match encodeFrame seq cmd payload with
  | some f => transmit f { s with crcReg := checksum (frameBody seq cmd payload) }
  | none => s

/-! The collaborators (60_exceptions.md R310 to R314). -/

/-- A collaborator call is an output event recorded in order (R314). -/
def call (e : Event) (s : State) : State := { s with events := s.events ++ [e] }

/-- The `k`-th value the collaborators will return from here on: any `uint32`, under no law (R314). The inputs of the run
come first; beyond them the value is `Config.freeDraw` at the counter (log 7). -/
def State.coming (s : State) (k : Nat) : Word :=
  match s.draws[k]? with
  | some w => w
  | none => Config.freeDraw (s.drawCount + (k - s.draws.length))

/-- The state after `n` values have been drawn. -/
def State.drawn (n : Nat) (s : State) : State :=
  { s with draws := s.draws.drop n, drawCount := s.drawCount + (n - s.draws.length) }

/-- One result of a collaborator: a draw (R314). -/
def draw (s : State) : Word × State := (s.coming 0, s.drawn 1)

/-! The error classes (60_exceptions.md R290 to R294, R300). -/

/-- A transport error: `XERR <- 1`, nothing else (R291). -/
def transportError (s : State) : State := s.setXerr true

/-- A protocol error at the host: `Rejected`, with its reason (R293). -/
def protocolError (why : HsReason) (s : State) : State := { s with hsReason := why, hsState := .rejected }

/-- An application error: "silently ignored at the point of detection" (R294). -/
def applicationError (s : State) : State := s

/-! Ending an operation. -/

/-- The operation ends and returns its result to the client (00_scope.md R11). -/
def finish (r : Result) (s : State) : State := { s with activity := .idle, result := r }

/-! Receiving an instruction: who acts on it, and whether (44_handshake.md R213, R218; 45_dispatcher.md R250). -/

/-- The classification of a Packet in response position (44_handshake.md R213), its tests in that order. The sequence
number is not examined. -/
def classify (p : Packet) (s : State) : State :=
  if p.command = Cmd.nack then
    match nackCode p.payload with
    | some code => protocolError .nackCode { s with hsErrcode := code }
    | none => protocolError .nackEmpty s
  else if p.command = Cmd.ack then
    match ackFields p.payload with
    | none => protocolError .ackShort s
    | some (version, status, deviceId) =>
      let s := { s with peerVer := version, peerStatus := status, peerId := deviceId }
      if version ≠ s.straps.protocolVersion then protocolError .ackVersion s
      else if status ≠ Code.statusOk then protocolError .ackStatus s
      else { s with hsReason := .none, hsState := .accepted }
  else protocolError .unexpectedCmd s

/-- A Packet at a host: classified while a handshake response is awaited (R212); at any other time it is the result of
the client's `RECV_PACKET` and has no further effect (44_handshake.md R216). -/
def hostReceive (p : Packet) (s : State) : State :=
  if s.hsState = .awaitingResponse then classify p s else { s with result := .packet p }

/-- The gate (44_handshake.md R218): while `HS_LATCH` = 0 a Packet other than HELLO is dropped, with no effect at all. -/
def gated (handler : State → State) (s : State) : State :=
  if s.hsLatch then handler s else applicationError s

/-- A received instruction: the host's treatment of its Packet, or the device's handler. The RAW variant is refused
(45_dispatcher.md R265, R268). -/
def receive (p : Packet) (handler : State → State) (s : State) : Outcome State Fault Refusal :=
  match s.straps.dispatchVariant with
  | .raw => .refused .rawVariant
  | .framed =>
    match s.straps.role with
    | .host => .next (hostReceive p s)
    | .device => .next (handler s)

/-- The acknowledgement a handler sends (45_dispatcher.md R254, R263): the request's sequence number, command 0x11. -/
def sendAck (seq : Half) (s : State) : State := sendPacket seq Cmd.ack (ackPayload s.straps) s

/-- The acknowledgement of SET_TARGET_ANGLE and SET_POWER_RELAY, sent only under `ACK_SET_COMMANDS` (R264). -/
def sendAckIfSet (seq : Half) (s : State) : State := if s.straps.ackSetCommands then sendAck seq s else s

end Sys2Proof.Machine
end

