-- ==== Sys2Proof/Machine/Handshake.lean ====
section
/-! DEFINITION. The handshake unit (44_handshake.md): the device's HELLO handler (R217), the meanings of HELLO, ACK and
NACK, and the host's attempt and retry (R212, R215) as the sequencer runs them. -/

namespace Sys2Proof.Machine

open Sys2Proof Host

/-- `PEER_VERSION` and `PEER_CAPS` take the bytes the HELLO has (R217). -/
def recordHello (p : List Byte) (s : State) : State :=
  { s with
    peerVersion := (helloVersion p).getD s.peerVersion
    peerCaps := (helloCaps p).getD s.peerCaps }

/-- The device's HELLO handler (R217): run whatever `HS_LATCH` is (R219). "must match exactly": the test is equality of
the two bytes; an empty payload has no version to match. -/
def handleHello (seq : Half) (p : List Byte) (s : State) : State :=
  let s := recordHello p s
  if helloVersion p = some s.straps.protocolVersion then sendAck seq { s with hsLatch := true }
  else sendPacket seq Cmd.nack nackPayload s

/-- HELLO, code 0x10: recognised before the gate (45_dispatcher.md R250). -/
def execHello (seq : Half) (p : List Byte) (s : State) : Outcome State Fault Refusal :=
  receive ⟨seq, Cmd.hello, p⟩ (handleHello seq p) s

/-- ACK, code 0x11: classified by a host that awaits it (R213); a device has no handler for it (45_dispatcher.md
R262). -/
def execAck (seq : Half) (p : List Byte) (s : State) : Outcome State Fault Refusal :=
  receive ⟨seq, Cmd.ack, p⟩ (gated applicationError) s

/-- NACK, code 0x12: as ACK. -/
def execNack (seq : Half) (p : List Byte) (s : State) : Outcome State Fault Refusal :=
  receive ⟨seq, Cmd.nack, p⟩ (gated applicationError) s

/-- The start of `HS_ATTEMPT` (R212), up to its first `RECV_PACKET`: the HELLO of R211 is sent. `RXBUF` is not
cleared. -/
def beginAttempt (seq : Half) (caps : Byte) (retry : Option Retry) (s : State) : State :=
  let s := { s with hsState := .idle, hsReason := .none }
  let s := sendPacket seq Cmd.hello (helloPayload s.straps caps) s
  { s with hsState := .awaitingResponse, activity := .packet (.handshake s.straps.hsRecvAttempts retry) }

/-- The top of the loop of `HS_ESTABLISH` (R215): the next attempt, or `FAILED` when `HS_MAX_ATTEMPTS` are used up.
Attempt n takes the n-th value of the list (log 10). -/
def establishLoop (r : Retry) (s : State) : Outcome State Fault Refusal :=
  if s.attempt < s.straps.hsMaxAttempts then
    match r.seqs with
    | seq :: later =>
      .next (beginAttempt seq r.caps (some { r with seqs := later }) { s with attempt := s.attempt + 1 })
    | [] => .refused .illFormedOperand
  else .next (finish .done { s with session := .failed })

/-- What follows an attempt that has its outcome (R212, R215): the end of `HS_ATTEMPT`, or, inside `HS_ESTABLISH`,
`ESTABLISHED` on the first `Accepted` and the next turn of the loop otherwise. -/
def afterAttempt (retry : Option Retry) (s : State) : Outcome State Fault Refusal :=
  match retry with
  | none => .next (finish .done s)
  | some r =>
    if s.hsState = .accepted then .next (finish .done { s with session := .established })
    else establishLoop r s

/-- `HS_STATE <- TimedOut; HS_REASON <- NO_RESPONSE` (R212). -/
def timedOut (s : State) : State := { s with hsState := .timedOut, hsReason := .noResponse }

/-- A `RECV_PACKET` of an attempt ended in `NoPacket`: it used up one of the `HS_RECV_ATTEMPTS` (R212). -/
def attemptNoPacket (left : Nat) (retry : Option Retry) (s : State) : Outcome State Fault Refusal :=
  if left ≤ 1 then afterAttempt retry (timedOut s)
  else .next { s with activity := .packet (.handshake (left - 1) retry) }

end Sys2Proof.Machine
end

