-- ==== Sys2Proof/Machine/Client.lean ====
section
/-! DEFINITION. The operations a client starts (00_scope.md R8): those with no `Transport.recv` run to their end at
once; the receiving ones set the operation in progress, and `Machine/Sequencer.lean` goes on from there. -/

namespace Sys2Proof.Machine

open Sys2Proof Host

/-- `CRC_INIT` (40_crc.md R121). -/
def opCrcInit (s : State) : State := finish .done { s with crcReg := crcInit }

/-- `CRC_BYTE(b)` (R122). -/
def opCrcByte (b : Byte) (s : State) : State := finish .done { s with crcReg := crcByte s.crcReg b }

/-- `CHECKSUM(bytes)` (R124): it returns `CRC_REG`. -/
def opChecksum (bs : List Byte) (s : State) : State := finish (.u16 (checksum bs)) { s with crcReg := checksum bs }

/-- `ENCODE` (41_frame_encoder.md R135, R136): the frame is the result, `CRC_REG` is scratch. -/
def opEncode (seq : Half) (cmd : Byte) (payload : List Byte) (s : State) : State :=
  match encodeFrame seq cmd payload with
  | some f => finish (.bytes f) { s with crcReg := checksum (frameBody seq cmd payload) }
  | none => finish .encTooLong s

/-- `RX_APPEND(b)` (42_stream_decoder.md R150). -/
def opRxAppend (b : Byte) (s : State) : Outcome State Fault Refusal :=
  match appendByte b s with
  | .next t => .next (finish .done t)
  | .fault f => .fault f
  | .refused r => .refused r

/-- `TRY_DECODE()` (R151). -/
def opTryDecode (s : State) : State :=
  match tryDecode s with
  | (some p, t) => finish (.packet p) t
  | (none, t) => finish .noPacket t

/-- `SEND_U8(v)` (43_transport.md R180). -/
def opSendU8 (v : Byte) (s : State) : State := finish .done (transmit [v] s)

/-- `SEND_U16(v)` (R181): low byte first. -/
def opSendU16 (v : Half) (s : State) : State := finish .done (transmit (bytes16 v) s)

/-- `SEND_U32(v)` (R182): lowest byte first. -/
def opSendU32 (v : Word) (s : State) : State := finish .done (transmit (bytes32 v) s)

/-- `SEND_PACKET` (R186): `Ok`, or `ENC_TOO_LONG` and nothing sent. -/
def opSendPacket (seq : Half) (cmd : Byte) (payload : List Byte) (s : State) : State :=
  match encodeFrame seq cmd payload with
  | some _ => finish .ok (sendPacket seq cmd payload s)
  | none => finish .encTooLong s

/-- The start of a scalar receive (R183 to R185). -/
def opRecvScalar (width : Scalar) (s : State) : State := { s with activity := .scalar width [] }

/-- The start of `RECV_PACKET` (R187). -/
def opRecvPacket (s : State) : State := { s with activity := .packet .client }

/-- `HS_ATTEMPT(seq, caps)`, role HOST (44_handshake.md R212). -/
def opHsAttempt (seq : Half) (caps : Byte) (s : State) : Outcome State Fault Refusal :=
  match s.straps.role with
  | .host => .next (beginAttempt seq caps none s)
  | .device => .refused .wrongRole

/-- `HS_ESTABLISH(seqs, caps)`, role HOST (R215). -/
def opHsEstablish (seqs : List Half) (caps : Byte) (s : State) : Outcome State Fault Refusal :=
  match s.straps.role with
  | .host =>
    if seqs.length = s.straps.hsMaxAttempts then
      establishLoop ⟨seqs, caps⟩ { s with session := .none, attempt := 0 }
    else .refused .illFormedOperand
  | .device => .refused .wrongRole

/-- `DEV_POLL()`, role DEVICE (45_dispatcher.md R250): its `RECV_PACKET` starts. -/
def opDevPoll (s : State) : Outcome State Fault Refusal :=
  match s.straps.role with
  | .host => .refused .wrongRole
  | .device => .next { s with activity := .packet .devPoll }

/-- The role that has a register; none for the registers of both roles (10_state.md R20). -/
def Reg.owner : Reg → Option Role
  | .pktValid => none
  | .pktSeq => none
  | .pktCmd => none
  | .pktPlen => none
  | .pktPayload => none
  | .xerr => none
  | .peerVersion => some .device
  | .peerCaps => some .device
  | .hsState => some .host
  | .attempt => some .host
  | .hsReason => some .host
  | .hsErrcode => some .host
  | .peerVer => some .host
  | .peerStatus => some .host
  | .peerId => some .host
  | .session => some .host

/-- Whether the spec lets a register be read now: the four holding registers only while `PKT_VALID` = 1 (R24),
`HS_ERRCODE` only while `HS_REASON` = `NACK_CODE` (R30). -/
def Reg.readable (s : State) : Reg → Bool
  | .pktValid => true
  | .pktSeq => s.pktValid
  | .pktCmd => s.pktValid
  | .pktPlen => s.pktValid
  | .pktPayload => s.pktValid
  | .xerr => true
  | .peerVersion => true
  | .peerCaps => true
  | .hsState => true
  | .attempt => true
  | .hsReason => true
  | .hsErrcode => s.hsReason == .nackCode
  | .peerVer => true
  | .peerStatus => true
  | .peerId => true
  | .session => true

/-- The value of a register; `PKT_PAYLOAD` in its first `PKT_PLEN` bytes (R24). -/
def Reg.value (s : State) : Reg → RegValue
  | .pktValid => .bit s.pktValid
  | .pktSeq => .half s.pktSeq
  | .pktCmd => .byte s.pktCmd
  | .pktPlen => .byte s.pktPlen
  | .pktPayload => .bytes (s.pktPayload.take s.pktPlen.toNat)
  | .xerr => .bit s.xerr
  | .peerVersion => .byte s.peerVersion
  | .peerCaps => .byte s.peerCaps
  | .hsState => .hsState s.hsState
  | .attempt => .count s.attempt
  | .hsReason => .hsReason s.hsReason
  | .hsErrcode => .byte s.hsErrcode
  | .peerVer => .byte s.peerVer
  | .peerStatus => .byte s.peerStatus
  | .peerId => .byte s.peerId
  | .session => .session s.session

/-- Whether the instance has the register. -/
def Reg.present (s : State) (r : Reg) : Bool :=
  match r.owner with
  | none => true
  | some role => role == s.straps.role

/-- The client reads a register: it changes nothing but the result. A register the spec calls unspecified at that
moment is a fault (93_implementation_defined.md U12, log 4). -/
def execReadReg (r : Reg) (s : State) : Outcome State Fault Refusal :=
  if r.present s then
    if r.readable s then .next (finish (.register (r.value s)) s) else .fault (.unspecifiedRead r)
  else .refused .wrongRole

/-- The operation a client starts. -/
def startOp (o : Op) (s : State) : Outcome State Fault Refusal :=
  match o with
  | .crcInit => .next (opCrcInit s)
  | .crcByte b => .next (opCrcByte b s)
  | .checksum bs => .next (opChecksum bs s)
  | .encode seq cmd payload => .next (opEncode seq cmd payload s)
  | .rxAppend b => opRxAppend b s
  | .tryDecode => .next (opTryDecode s)
  | .sendU8 v => .next (opSendU8 v s)
  | .sendU16 v => .next (opSendU16 v s)
  | .sendU32 v => .next (opSendU32 v s)
  | .recvU8 => .next (opRecvScalar .u8 s)
  | .recvU16 => .next (opRecvScalar .u16 s)
  | .recvU32 => .next (opRecvScalar .u32 s)
  | .sendPacket seq cmd payload => .next (opSendPacket seq cmd payload s)
  | .recvPacket => .next (opRecvPacket s)
  | .hsAttempt seq caps => opHsAttempt seq caps s
  | .hsEstablish seqs caps => opHsEstablish seqs caps s
  | .devPoll => opDevPoll s
  | .readReg r => execReadReg r s

end Sys2Proof.Machine
end

