-- ==== Sys2Proof/Machine/Get.lean ====
section
/-! DEFINITION. The GET commands and their replies (45_dispatcher.md R257 to R260, R263): handlers and meanings. A reply
is one frame with the request's code and sequence number (30_encoding.md R111). -/

namespace Sys2Proof.Machine

open Sys2Proof Host

/-- The read-back of the calibrations (R257, 30_encoding.md R102): for each channel, ascending, the two patterns that
`Actuator.get_calibration(c)` returns, min before max, each as `bytes32`. -/
def calibrationReply (s : State) : List Byte :=
  (List.range Config.numChannels).flatMap fun c => bytes32 (s.coming (2 * c)) ++ bytes32 (s.coming (2 * c + 1))

/-- `H_GET_ANGLE_CALIBRATIONS` (R257): one `get_calibration` for each channel, two values each, then the reply of 144
payload bytes. -/
def handleGetAngleCalibrations (seq : Half) (s : State) : State :=
  sendPacket seq Cmd.getAngleCalibrations (calibrationReply s)
    (((List.range Config.numChannels).map Event.getCalibration).foldl (fun s e => call e s)
      (s.drawn (2 * Config.numChannels)))

/-- `H_GET_CURRENT` (R258). -/
def handleGetCurrent (seq : Half) (s : State) : State :=
  let (w, s) := draw (call .sensorCurrent s)
  sendPacket seq Cmd.getCurrent (bytes32 w) s

/-- `H_GET_VOLTAGE` (R259). -/
def handleGetVoltage (seq : Half) (s : State) : State :=
  let (w, s) := draw (call .sensorVoltage s)
  sendPacket seq Cmd.getVoltage (bytes32 w) s

/-- `H_GET_SENSOR` (R260): the channel is not range-checked. -/
def handleGetSensor (seq : Half) (p : List Byte) (s : State) : State :=
  if p.length < need Cmd.getSensor then applicationError s
  else
    let (w, s) := draw (call (.sensorRead (sensorChannel p)) s)
    sendPacket seq Cmd.getSensor (bytes32 w) s

/-- GET_ANGLE_CALIBRATIONS, code 0x04. -/
def execGetAngleCalibrations (seq : Half) (p : List Byte) (s : State) : Outcome State Fault Refusal :=
  receive ⟨seq, Cmd.getAngleCalibrations, p⟩ (gated (handleGetAngleCalibrations seq)) s

/-- GET_ANGLE_CALIBRATIONS.reply, code 0x04 from the device. Its frame is the request's frame, so a device that it
reaches routes it as the request (45_dispatcher.md R251, log 17). -/
def execGetAngleCalibrationsReply (seq : Half) (p : List Byte) (s : State) : Outcome State Fault Refusal :=
  receive ⟨seq, Cmd.getAngleCalibrations, p⟩ (gated (handleGetAngleCalibrations seq)) s

/-- GET_CURRENT, code 0x05. -/
def execGetCurrent (seq : Half) (p : List Byte) (s : State) : Outcome State Fault Refusal :=
  receive ⟨seq, Cmd.getCurrent, p⟩ (gated (handleGetCurrent seq)) s

/-- GET_CURRENT.reply, code 0x05 from the device (log 17). -/
def execGetCurrentReply (seq : Half) (p : List Byte) (s : State) : Outcome State Fault Refusal :=
  receive ⟨seq, Cmd.getCurrent, p⟩ (gated (handleGetCurrent seq)) s

/-- GET_VOLTAGE, code 0x06. -/
def execGetVoltage (seq : Half) (p : List Byte) (s : State) : Outcome State Fault Refusal :=
  receive ⟨seq, Cmd.getVoltage, p⟩ (gated (handleGetVoltage seq)) s

/-- GET_VOLTAGE.reply, code 0x06 from the device (log 17). -/
def execGetVoltageReply (seq : Half) (p : List Byte) (s : State) : Outcome State Fault Refusal :=
  receive ⟨seq, Cmd.getVoltage, p⟩ (gated (handleGetVoltage seq)) s

/-- GET_SENSOR, code 0x07. -/
def execGetSensor (seq : Half) (p : List Byte) (s : State) : Outcome State Fault Refusal :=
  receive ⟨seq, Cmd.getSensor, p⟩ (gated (handleGetSensor seq p)) s

/-- GET_SENSOR.reply, code 0x07 from the device (log 17). -/
def execGetSensorReply (seq : Half) (p : List Byte) (s : State) : Outcome State Fault Refusal :=
  receive ⟨seq, Cmd.getSensor, p⟩ (gated (handleGetSensor seq p)) s

end Sys2Proof.Machine
end

