-- ==== Sys2Proof/Machine/Set.lean ====
section
/-! DEFINITION. The SET commands (45_dispatcher.md R254 to R256, R264): handlers and meanings. -/

namespace Sys2Proof.Machine

open Sys2Proof Host

/-- The collaborator calls of SET_ANGLE_CALIBRATIONS: one for each channel, in ascending order (R254). -/
def calibrationCalls (p : List Byte) : List Event :=
  (List.range Config.numChannels).map fun c => .setCalibration c (minPulse p c) (maxPulse p c)

/-- `H_SET_ANGLE_CALIBRATIONS` (R254): the 18 calls, then the ACK. -/
def handleSetAngleCalibrations (seq : Half) (p : List Byte) (s : State) : State :=
  if p.length < need Cmd.setAngleCalibrations then applicationError s
  else sendAck seq ((calibrationCalls p).foldl (fun s e => call e s) s)

/-- `H_SET_TARGET_ANGLE` (R255): a channel of 18 or more is ignored. -/
def handleSetTargetAngle (seq : Half) (p : List Byte) (s : State) : State :=
  if p.length < need Cmd.setTargetAngle then applicationError s
  else if Config.numChannels ≤ (targetChannel p).toNat then applicationError s
  else sendAckIfSet seq (call (.setTarget (targetChannel p) (targetAngle p)) s)

/-- `H_SET_POWER_RELAY` (R256): a value other than 0 or 1 is ignored. -/
def handleSetPowerRelay (seq : Half) (p : List Byte) (s : State) : State :=
  if p.length < need Cmd.setPowerRelay then applicationError s
  else
    match relayFlag p with
    | some flag => sendAckIfSet seq (call (.relaySet flag) s)
    | none => applicationError s

/-- SET_ANGLE_CALIBRATIONS, code 0x01. -/
def execSetAngleCalibrations (seq : Half) (p : List Byte) (s : State) : Outcome State Fault Refusal :=
  receive ⟨seq, Cmd.setAngleCalibrations, p⟩ (gated (handleSetAngleCalibrations seq p)) s

/-- SET_TARGET_ANGLE, code 0x02. -/
def execSetTargetAngle (seq : Half) (p : List Byte) (s : State) : Outcome State Fault Refusal :=
  receive ⟨seq, Cmd.setTargetAngle, p⟩ (gated (handleSetTargetAngle seq p)) s

/-- SET_POWER_RELAY, code 0x03. -/
def execSetPowerRelay (seq : Half) (p : List Byte) (s : State) : Outcome State Fault Refusal :=
  receive ⟨seq, Cmd.setPowerRelay, p⟩ (gated (handleSetPowerRelay seq p)) s

end Sys2Proof.Machine
end

