-- ==== Sys2Proof/Machine/Dispatch.lean ====
section
/-! DEFINITION. The meaning of each instruction: one arm per row of the opcode table. -/

namespace Sys2Proof.Machine

open Sys2Proof Host

def exec (i : Instr) (s : State) : Host.Outcome State Fault Refusal :=
  match i with
  | .setAngleCalibrations seq p => Sys2Proof.Machine.execSetAngleCalibrations seq p s
  | .setTargetAngle seq p => Sys2Proof.Machine.execSetTargetAngle seq p s
  | .setPowerRelay seq p => Sys2Proof.Machine.execSetPowerRelay seq p s
  | .getAngleCalibrations seq p => Sys2Proof.Machine.execGetAngleCalibrations seq p s
  | .getAngleCalibrationsReply seq p => Sys2Proof.Machine.execGetAngleCalibrationsReply seq p s
  | .getCurrent seq p => Sys2Proof.Machine.execGetCurrent seq p s
  | .getCurrentReply seq p => Sys2Proof.Machine.execGetCurrentReply seq p s
  | .getVoltage seq p => Sys2Proof.Machine.execGetVoltage seq p s
  | .getVoltageReply seq p => Sys2Proof.Machine.execGetVoltageReply seq p s
  | .getSensor seq p => Sys2Proof.Machine.execGetSensor seq p s
  | .getSensorReply seq p => Sys2Proof.Machine.execGetSensorReply seq p s
  | .hello seq p => Sys2Proof.Machine.execHello seq p s
  | .ack seq p => Sys2Proof.Machine.execAck seq p s
  | .nack seq p => Sys2Proof.Machine.execNack seq p s

end Sys2Proof.Machine
end

