-- ==== Sys2Proof/Machine/Sequencer.lean ====
section
/-! DEFINITION. How an operation in progress goes on: one turn of a scalar receive or of the loop of `RECV_PACKET`, at
most one `Transport.recv` each (20_memory.md R58), and what is done with the Packet or its absence. -/

namespace Sys2Proof.Machine

open Sys2Proof Host

/-- Number of bytes of a scalar (43_transport.md R183 to R185). -/
def Scalar.size : Scalar → Nat
  | .u8 => 1
  | .u16 => 2
  | .u32 => 4

/-- The value of a scalar, little-endian (R183 to R185). -/
def Scalar.value (w : Scalar) (bs : List Byte) : Result :=
  match w with
  | .u8 => .u8 (byteAt bs 0)
  | .u16 => .u16 (le16 (byteAt bs 0) (byteAt bs 1))
  | .u32 => .u32 (le32 (byteAt bs 0) (byteAt bs 1) (byteAt bs 2) (byteAt bs 3))

/-- One `Transport.recv` of a scalar receive. On `Timeout` the bytes already taken are lost (R184). `RXBUF` is not
touched (R190). -/
def scalarTurn (width : Scalar) (got : List Byte) (s : State) : State :=
  match recv s with
  | (.timeout, t) => finish .fail (transportError t)
  | (.byte b, t) =>
    if got.length + 1 < width.size then { t with activity := .scalar width (got ++ [b]) }
    else finish (width.value (got ++ [b])) (t.setXerr false)

/-- A Packet that is none of the catalogue's, at the unit that receives it: the device ignores it (45_dispatcher.md
R252), a host that awaits a response rejects it, and another host hands it to its client. The RAW variant is
refused. -/
def unassigned (p : Packet) (s : State) : Outcome State Fault Refusal :=
  receive p applicationError s

/-- The Packet is acted on as the instruction it is at this side of the link. -/
def actOn (p : Packet) (s : State) : Outcome State Fault Refusal :=
  match Instr.ofPacket s.straps.role p with
  | some i => exec i s
  | none => unassigned p s

/-- The state in which a received Packet is acted on: `RECV_PACKET` has succeeded, so `XERR <- 0` (R187), and the
operation in progress is at its end. -/
def received (s : State) : State := finish .done (s.setXerr false)

/-- What is done with a Packet that `RECV_PACKET` returned. The client's own `RECV_PACKET` on a device returns it and
runs no handler (43_transport.md R187). -/
def deliver (who : Caller) (p : Packet) (s : State) : Outcome State Fault Refusal :=
  match who with
  | .client =>
    match s.straps.role with
    | .host => actOn p (received s)
    | .device => .next (finish (.packet p) (s.setXerr false))
  | .devPoll => actOn p (received s)
  | .handshake _ retry =>
    match actOn p (received s) with
    | .next t => afterAttempt retry t
    | .fault f => .fault f
    | .refused r => .refused r

/-- What is done when `RECV_PACKET` ended in `NoPacket` (R187): `XERR` is 1, and the caller ends or tries again. -/
def noPacket (who : Caller) (s : State) : Outcome State Fault Refusal :=
  match who with
  | .client => .next (finish .noPacket (transportError s))
  | .devPoll => .next (finish .done (transportError s))
  | .handshake left retry => attemptNoPacket left retry (transportError s)

/-- One turn of the loop of `RECV_PACKET` (R187): `TRY_DECODE`, and, if it gives no Packet, one `Transport.recv`. -/
def packetTurn (who : Caller) (s : State) : Outcome State Fault Refusal :=
  match tryDecode s with
  | (some p, t) => deliver who p t
  | (none, t) =>
    match recv t with
    | (.timeout, u) => noPacket who u
    | (.byte b, u) => appendByte b u

/-- One turn of the instance: it goes on with the operation in progress, or starts the next one the client asks for, or,
with none, stays as it is (70_reset_and_hazards.md R331). -/
def turn (s : State) : Outcome State Fault Refusal :=
  match s.activity with
  | .idle =>
    match s.ops with
    | [] => .next s
    | o :: later => startOp o { s with ops := later }
  | .scalar width got => .next (scalarTurn width got s)
  | .packet who => packetTurn who s

/-- The configurations the spec gives no steps: parameters outside the ranges of 00_scope.md R9, and the RAW
variant (45_dispatcher.md R265, 93_implementation_defined.md U22). -/
def configRefusal (c : Straps) : Option Refusal :=
  if c.wf then
    match c.dispatchVariant with
    | .framed => none
    | .raw => some .rawVariant
  else some .illFormedStraps

/-- The state with a frame as the whole of `RXBUF` and `RECV_PACKET` about to look at it: for `DEV_POLL` on a device,
for the client on a host. -/
def withFrame (f : List Byte) (s : State) : State :=
  { s with
    rxbuf := f
    activity := .packet (match s.straps.role with | .device => .devPoll | .host => .client) }

end Sys2Proof.Machine
end

