-- ==== Sys2Proof/Machine/Step.lean ====
section
/-! DEFINITION. One step of the machine, and the placing of an instruction where the step finds it. -/

namespace Sys2Proof.Machine

open Sys2Proof Host

/-- One step (00_scope.md R7): at most one `Transport.recv`. -/
def step (s : State) : Outcome State Fault Refusal :=
  match configRefusal s.straps with
  | some r => .refused r
  | none => turn s

/-- The state whose next step receives the frame of a table word and runs its instruction (log 18). -/
def State.withFetchWord (s : State) (nbits w : Nat) : State :=
  withFrame (frameOfTableWord s.straps.role nbits w) s

end Sys2Proof.Machine
end

