-- ==== Sys2Proof/Machine/Link.lean ====
section
/-! DEFINITION. Two instances joined by the wire (60_exceptions.md R315): what one has sent is queued for the other
(20_memory.md R57), and the environment interleaves them. Nothing else is shared. -/

namespace Sys2Proof.Machine

open Sys2Proof Host

/-- The two sides. `W_HD` is `device.wireIn` and `W_DH` is `host.wireIn`. -/
structure Link where
  host : State
  device : State
  deriving DecidableEq, Repr

/-- What happens next on the link: the environment's choice (R315). -/
inductive LinkTurn
  /-- one side makes a step -/
  | step (side : Role)
  /-- the next `Transport.recv` of one side, its later answers as they are, is a `Timeout` (20_memory.md R58) -/
  | timeout (side : Role)
  /-- the bytes queued for one side become these: lost, added or altered (R59) -/
  | disturb (side : Role) (queue : List Byte)
  deriving DecidableEq, Repr

/-- The state of one side. -/
def Link.side (l : Link) : Role → State
  | .host => l.host
  | .device => l.device

/-- The other side. -/
def otherSide : Role → Role
  | .host => .device
  | .device => .host

/-- The link with one side's state replaced. -/
def Link.set (l : Link) (side : Role) (s : State) : Link :=
  match side with
  | .host => { l with host := s }
  | .device => { l with device := s }

/-- What a side has sent is queued for the other, in order (R57); the two directions are independent. -/
def Link.carry (l : Link) (side : Role) : Link :=
  let s := l.side side
  let other := l.side (otherSide side)
  (l.set side { s with wireOut := [] }).set (otherSide side) { other with wireIn := other.wireIn ++ s.wireOut }

/-- One turn of the link. Altered bytes belong to the wire model `arbitrary` (R59, log 21). -/
def Link.turn (l : Link) : LinkTurn → Outcome Link Fault Refusal
  | .step side =>
    match step (l.side side) with
    | .next t => .next ((l.set side t).carry side)
    | .fault f => .fault f
    | .refused r => .refused r
  | .timeout side => .next (l.set side { l.side side with timeouts := true :: (l.side side).timeouts })
  | .disturb side queue =>
    match (l.side side).straps.wireModel with
    | .ideal => .refused .idealWire
    | .arbitrary => .next (l.set side { l.side side with wireIn := queue })

/-- A run of the link: the turns in order, up to the first that stops. -/
def Link.run (l : Link) : List LinkTurn → Outcome Link Fault Refusal
  | [] => .next l
  | x :: later =>
    match l.turn x with
    | .next m => m.run later
    | .fault f => .fault f
    | .refused r => .refused r

end Sys2Proof.Machine
end

