-- ==== Sys2Proof/Machine/Route.lean ====
section
/-! DEFINITION. `DEV_POLL` as its pseudocode has it (45_dispatcher.md R250), with the routing table (R251): what a
device does with a received Packet, said over command bytes. `exec` says the same over instructions; that the two agree
is a statement. -/

namespace Sys2Proof.Machine

open Sys2Proof Host

/-- `ROUTE(cmd)` (R251): a fixed function of all 8 bits of the command; ACK, NACK and every other value have no handler
(R252, R262). -/
def route (cmd : Byte) : Option Handler :=
  match cmd.toNat with
  | 0x01 => some .setAngleCalibrations
  | 0x02 => some .setTargetAngle
  | 0x03 => some .setPowerRelay
  | 0x04 => some .getAngleCalibrations
  | 0x05 => some .getCurrent
  | 0x06 => some .getVoltage
  | 0x07 => some .getSensor
  | 0x10 => some .hello
  | _ => none

/-- "run handler h on pkt" (R250, R254 to R261). -/
def runHandler (h : Handler) (p : Packet) (s : State) : State :=
  match h with
  | .setAngleCalibrations => handleSetAngleCalibrations p.sequence p.payload s
  | .setTargetAngle => handleSetTargetAngle p.sequence p.payload s
  | .setPowerRelay => handleSetPowerRelay p.sequence p.payload s
  | .getAngleCalibrations => handleGetAngleCalibrations p.sequence s
  | .getCurrent => handleGetCurrent p.sequence s
  | .getVoltage => handleGetVoltage p.sequence s
  | .getSensor => handleGetSensor p.sequence p.payload s
  | .hello => handleHello p.sequence p.payload s

/-- The part of `DEV_POLL` after its `RECV_PACKET` (R250): HELLO, then the gate, then the table. -/
def devPollPacket (p : Packet) (s : State) : State :=
  if p.command = Cmd.hello then handleHello p.sequence p.payload s
  else if s.hsLatch = false then s
  else
    match route p.command with
    | none => s
    | some h => runHandler h p s

end Sys2Proof.Machine
end

