-- ==== Sys2Proof/Safety.lean ====
section
/-! DEFINITION. What a run keeps: the invariants of 10_state.md R38 and of the operation in progress, in the terms the
statements use. -/

namespace Sys2Proof.Machine

open Sys2Proof Host

/-- The form `RXBUF` has after a `TRY_DECODE` that returned `None` (42_stream_decoder.md R162): empty, or led by STX and
too short to judge. -/
def Waiting (m : List Byte) : Prop :=
  m = [] ∨
    (m.head? = some Frame.stx ∧
      (m.length < 8 ∨ (3 ≤ (byteAt m 1).toNat ∧ m.length < (byteAt m 1).toNat + 5)))

/-- `k` steps, up to the first that stops. -/
abbrev run (k : Nat) (s : State) : Outcome State Fault Refusal := Host.Core.run Sys2Proof.core k s

/-- An attempt of the handshake is in progress. -/
def Activity.inHandshake : Activity → Bool
  | .idle => false
  | .scalar _ _ => false
  | .packet .client => false
  | .packet .devPoll => false
  | .packet (.handshake _ _) => true

/-- What holds of the operation in progress: it belongs to a unit of this role, it has receive attempts left, and
`HS_ESTABLISH` has one sequence number for each attempt to come. -/
def Activity.ok (s : State) : Activity → Prop
  | .idle => True
  | .scalar width got => got.length < width.size
  | .packet .client => True
  | .packet .devPoll => s.straps.role = .device
  | .packet (.handshake left retry) =>
    s.straps.role = .host ∧ 1 ≤ left ∧ left ≤ s.straps.hsRecvAttempts ∧
      ∀ r, retry = some r → r.seqs.length + s.attempt = s.straps.hsMaxAttempts

/-- The configuration is one the spec gives steps. -/
def State.configured (s : State) : Prop := configRefusal s.straps = none

/-- The invariant of a run: R38 (a), (d), (e), the widths of `PKT_PLEN` and `PKT_PAYLOAD` (R24), and the operation in
progress. -/
structure State.Inv (s : State) : Prop where
  rxbuf : Memory.wf s.straps.rxbufCap s.rxbuf = true
  plen : s.pktPlen.toNat ≤ Config.maxPayload
  payload : s.pktPayload.length = Config.maxPayload
  attempt : s.attempt ≤ s.straps.hsMaxAttempts
  awaiting : s.hsState = .awaitingResponse ↔ s.activity.inHandshake = true
  activity : s.activity.ok s

/-- The bound of 10_state.md R38 (b) and 43_transport.md R189: 259 bytes between operations; inside `RECV_PACKET` one
byte more, appended just after a `TRY_DECODE` that gave nothing. -/
def State.bufferBound (s : State) : Prop :=
  match s.activity with
  | .idle => s.rxbuf.length ≤ 259
  | .scalar _ _ => s.rxbuf.length ≤ 259
  | .packet _ => s.rxbuf.length ≤ 259 ∨ ∃ m b, s.rxbuf = m ++ [b] ∧ Waiting m

/-- The next turn does not start `RX_APPEND`: bytes enter `RXBUF` through `RECV_PACKET` only. -/
def State.feedsByRecv (s : State) : Prop :=
  s.activity = .idle → ∀ b later, s.ops ≠ .rxAppend b :: later

/-- A device that acts on every catalogue command: the framed variant, the gate open (60_exceptions.md R306). -/
def State.gateOpen (s : State) : Prop :=
  s.straps.role = .device ∧ s.straps.dispatchVariant = .framed ∧ s.hsLatch = true

/-- A device that acts on HELLO only: the framed variant, the gate closed (R306). -/
def State.gateClosed (s : State) : Prop :=
  s.straps.role = .device ∧ s.straps.dispatchVariant = .framed ∧ s.hsLatch = false

/-- A device of the framed variant, whatever its gate. -/
def State.framedDevice (s : State) : Prop := s.straps.role = .device ∧ s.straps.dispatchVariant = .framed

/-- A host of the framed variant. -/
def State.framedHost (s : State) : Prop := s.straps.role = .host ∧ s.straps.dispatchVariant = .framed

/-- A host in response position: HELLO sent, response not yet classified (44_handshake.md R210). -/
def State.awaits (s : State) : Prop := s.framedHost ∧ s.hsState = .awaitingResponse

/-- A host outside response position. -/
def State.hostAtRest (s : State) : Prop := s.framedHost ∧ s.hsState ≠ .awaitingResponse

/-- The instance is configured and idle, and the client's next operation is `o`. -/
def State.asks (s : State) (o : Op) (later : List Op) : Prop :=
  s.configured ∧ s.activity = .idle ∧ s.ops = o :: later

/-- The environment delivers what is queued: no `Timeout` is listed (20_memory.md R58). -/
def State.delivers (s : State) : Prop := s.timeouts = []

/-- The state after a `SEND_PACKET` of a payload the frame carries: its bytes are sent in one action, which comes after
the calls already made, and the scratch register holds its checksum (43_transport.md R186, 20_memory.md R61). -/
def State.sent (seq : Half) (cmd : Byte) (payload : List Byte) (s : State) : State :=
  { s with
    wireOut := s.wireOut ++ frameBytes seq cmd payload
    events := s.events ++ [.sent (frameBytes seq cmd payload).length]
    crcReg := checksum (frameBody seq cmd payload) }

/-- A collaborator call, not a send. -/
def Event.isCall : Event → Bool
  | .setCalibration _ _ _ => true
  | .setTarget _ _ => true
  | .getCalibration _ => true
  | .sensorCurrent => true
  | .sensorVoltage => true
  | .sensorRead _ => true
  | .relaySet _ => true
  | .sent _ => false

/-- Bytes with bit `k` flipped, bit 0 the least significant bit of the first byte. -/
def flipBit (bs : List Byte) (k : Nat) : List Byte :=
  bs.modify (k / 8) fun b => b ^^^ (1#8 <<< (k % 8))

/-- Index `p` of a buffer is harmless (42_stream_decoder.md R165): if it holds 0x7E, the decoder rejects it with the
bytes at hand. -/
def harmless (m : List Byte) (p : Nat) : Prop :=
  byteAt m p = Frame.stx →
    (byteAt m (p + 1)).toNat < 3 ∨
      ((byteAt m (p + 1)).toNat + 5 ≤ m.length - p ∧
        byteAt m (p + (byteAt m (p + 1)).toNat + 4) ≠ Frame.etx) ∨
      ((byteAt m (p + 1)).toNat + 5 ≤ m.length - p ∧
        checksum (slice m (p + 1) (p + (byteAt m (p + 1)).toNat + 1)) ≠
          le16 (byteAt m (p + (byteAt m (p + 1)).toNat + 2)) (byteAt m (p + (byteAt m (p + 1)).toNat + 3)))

end Sys2Proof.Machine
end

