-- ==== Sys2Proof/Certificates/Slice0/Obligations.lean ====
section
/-! DEFINITION. The statements about the model, one `Prop` each; OBLIGATIONS.json lists them with the rules of spec/ they
formalise. Every statement is for every value of the straps that a state can hold. In a next state, `ops`, `activity` and
`result` are the model's own account of what the client asks for and gets back (log 1, 8), and `wireIn`, `timeouts`,
`wireOut`, `draws`, `drawCount` and `events` are how it holds the environment and the order of what is done to it (log 6,
7); no rule is cited for that. -/

open Sys2Proof Sys2Proof.Machine Host

/-! The CRC unit. -/

/-- 40_crc.md R121, R122, R124: the three operations of the CRC unit, the byte step written out as its rule has it. -/
def Obligations.CrcUnitOperations : Prop :=
  ∀ (s : State) (later : List Op),
    (s.asks .crcInit later →
      step s = .next { s with ops := later, crcReg := 0xFFFF#16, activity := .idle, result := .done }) ∧
    (∀ b : Byte, s.asks (.crcByte b) later →
      step s = .next
        { s with
          ops := later
          crcReg := (fun c : Half => if c.getLsbD 15 then ((c <<< 1) &&& 0xFFFF#16) ^^^ 0x1021#16
            else (c <<< 1) &&& 0xFFFF#16)^[8] (s.crcReg ^^^ (b.zeroExtend 16 <<< 8))
          activity := .idle
          result := .done }) ∧
    (∀ bs : List Byte, s.asks (.checksum bs) later →
      step s = .next
        { s with
          ops := later
          crcReg := bs.foldl crcByte 0xFFFF#16
          activity := .idle
          result := .u16 (bs.foldl crcByte 0xFFFF#16) })

/-- 40_crc.md R123: the bit-serial form gives the same register, its taps are bits 0, 5 and 12, and the worked example
of byte 0x31. -/
def Obligations.BitSerialFormGivesTheSameRegister : Prop :=
  (∀ (c : Half) (b : Byte), crcSerialByte c b = crcByte c b) ∧
  (∀ (c : Half) (d : Bool) (i : Nat), i < 16 →
    (crcSerialBit c d).getLsbD i =
      if i = 0 then c.getLsbD 15 ^^ d
      else if i = 5 ∨ i = 12 then c.getLsbD (i - 1) ^^ (c.getLsbD 15 ^^ d)
      else c.getLsbD (i - 1)) ∧
  [false, false, true, true, false, false, false, true].scanl crcSerialBit 0xFFFF#16 =
    [0xFFFF#16, 0xEFDF#16, 0xCF9F#16, 0x9F3E#16, 0x3E7C#16, 0x7CF8#16, 0xF9F0#16, 0xE3C1#16, 0xC782#16]

/-- 40_crc.md R126 (a) and (b): the checksum is incremental, and affine over GF(2). -/
def Obligations.ChecksumIsIncrementalAndAffine : Prop :=
  (∀ a b : List Byte, checksum (a ++ b) = b.foldl crcByte (checksum a)) ∧
  (∀ m e : List Byte, m.length = e.length →
    checksum (List.zipWith (· ^^^ ·) m e) = checksum m ^^^ e.foldl crcByte 0x0000#16)

/-- 40_crc.md R126 (c): every single-bit change changes the checksum. -/
def Obligations.SingleBitChangeChangesChecksum : Prop :=
  ∀ (m : List Byte) (k : Nat), k < 8 * m.length → checksum (flipBit m k) ≠ checksum m

/-! The frame encoder. -/

/-- 30_encoding.md R81: the byte offsets of a frame with a payload of `n` bytes. -/
def Obligations.FrameHasTheLayoutOfTheTable : Prop :=
  ∀ (seq : Half) (cmd : Byte) (p : List Byte), p.length ≤ 252 →
    ∃ f, encodeFrame seq cmd p = some f ∧ f.length = p.length + 8 ∧
      byteAt f 0 = 0x7E#8 ∧ (byteAt f 1).toNat = 3 + p.length ∧
      byteAt f 2 = lo8 seq ∧ byteAt f 3 = hi8 seq ∧ byteAt f 4 = cmd ∧
      (∀ k, k < p.length → byteAt f (5 + k) = byteAt p k) ∧
      byteAt f (5 + p.length) = lo8 (checksum (slice f 1 ((byteAt f 1).toNat + 1))) ∧
      byteAt f (6 + p.length) = hi8 (checksum (slice f 1 ((byteAt f 1).toNat + 1))) ∧
      byteAt f (7 + p.length) = 0x7F#8

/-- 41_frame_encoder.md R136, 43_transport.md R186: `ENCODE` and `SEND_PACKET` of a payload the frame carries, and of a
longer one, which sends nothing and changes no state but the result. -/
def Obligations.EncodeAndSendPacketOperations : Prop :=
  ∀ (s : State) (later : List Op) (seq : Half) (cmd : Byte) (p : List Byte),
    (p.length ≤ 252 → s.asks (.encode seq cmd p) later →
      step s = .next
        { s with
          ops := later
          crcReg := checksum (frameBody seq cmd p)
          activity := .idle
          result := .bytes (frameBytes seq cmd p) }) ∧
    (252 < p.length → s.asks (.encode seq cmd p) later →
      step s = .next { s with ops := later, activity := .idle, result := .encTooLong }) ∧
    (p.length ≤ 252 → s.asks (.sendPacket seq cmd p) later →
      step s = .next
        { s with
          ops := later
          crcReg := checksum (frameBody seq cmd p)
          wireOut := s.wireOut ++ frameBytes seq cmd p
          events := s.events ++ [.sent (p.length + 8)]
          activity := .idle
          result := .ok }) ∧
    (252 < p.length → s.asks (.sendPacket seq cmd p) later →
      step s = .next { s with ops := later, activity := .idle, result := .encTooLong })

/-! The decoder. -/

/-- Decode and encode agree, in both directions: at either side, bytes decode to an instruction exactly when they are its
frame, with what follows it, and the instruction is well formed and can arrive there. -/
def Obligations.DecodeAcceptsExactlyTheEncodings : Prop :=
  ∀ (r : Role) (bs : List Byte) (i : Instr) (rest : List Byte),
    decode r bs = .instr i rest ↔
      i.wf = true ∧ i.arrivesAt r = true ∧ ∃ f, encode i = some f ∧ bs = f ++ rest

/-- 41_frame_encoder.md R138: `TRY_DECODE` of a buffer that holds exactly an encoded frame. What `PKT_PAYLOAD` holds
behind the payload is not said. -/
def Obligations.TryDecodeReturnsTheEncodedPacket : Prop :=
  ∀ (s : State) (later : List Op) (seq : Half) (cmd : Byte) (p : List Byte), p.length ≤ 252 →
    s.asks .tryDecode later → encodeFrame seq cmd p = some s.rxbuf →
    ∃ tail, step s = .next
      { s with
        ops := later
        rxbuf := []
        crcReg := checksum (frameBody seq cmd p)
        pktValid := true
        pktSeq := seq
        pktCmd := cmd
        pktPlen := BitVec.ofNat 8 p.length
        pktPayload := p ++ tail
        activity := .idle
        result := .packet ⟨seq, cmd, p⟩ }

/-- 42_stream_decoder.md R162: the state after a `TRY_DECODE`. -/
def Obligations.BufferAfterTryDecode : Prop :=
  ∀ s : State,
    ((tryDecode s).1 = none →
      ((tryDecode s).2.rxbuf = [] ∨
        (byteAt (tryDecode s).2.rxbuf 0 = 0x7E#8 ∧
          ((tryDecode s).2.rxbuf.length < 8 ∨
            (3 ≤ (byteAt (tryDecode s).2.rxbuf 1).toNat ∧
              (tryDecode s).2.rxbuf.length < (byteAt (tryDecode s).2.rxbuf 1).toNat + 5)))) ∧
      (tryDecode s).2.rxbuf.length ≤ 259 ∧
      tryDecode (tryDecode s).2 = (none, (tryDecode s).2)) ∧
    (∀ p, (tryDecode s).1 = some p →
      ∃ before f, encodeFrame p.sequence p.command p.payload = some f ∧
        s.rxbuf = before ++ (f ++ (tryDecode s).2.rxbuf)) ∧
    ∃ gone, s.rxbuf = gone ++ (tryDecode s).2.rxbuf

/-- 42_stream_decoder.md R165: one `TRY_DECODE` of garbage and a valid frame returns the frame's Packet and leaves
`RXBUF` empty if and only if every 0x7E of the garbage is harmless; the first that is not stalls the call or is returned
as a frame of its own; with no 0x7E in the garbage the property holds. -/
def Obligations.ResyncExactlyWhenGarbageIsHarmless : Prop :=
  ∀ (s : State) (g f : List Byte) (seq : Half) (cmd : Byte) (p : List Byte),
    encodeFrame seq cmd p = some f → s.rxbuf = g ++ f →
      (((tryDecode s).1 = some ⟨seq, cmd, p⟩ ∧ (tryDecode s).2.rxbuf = []) ↔
        ∀ k, k < g.length → harmless (g ++ f) k) ∧
      (∀ k, k < g.length → ¬ harmless (g ++ f) k → (∀ j, j < k → harmless (g ++ f) j) →
        ((tryDecode s).1 = none ∧ (tryDecode s).2.rxbuf = (g ++ f).drop k) ∨
          ∃ q f', (tryDecode s).1 = some q ∧ encodeFrame q.sequence q.command q.payload = some f' ∧
            (g ++ f).drop k = f' ++ (tryDecode s).2.rxbuf) ∧
      ((∀ b ∈ g, b ≠ 0x7E#8) → (tryDecode s).1 = some ⟨seq, cmd, p⟩ ∧ (tryDecode s).2.rxbuf = [])

/-- 42_stream_decoder.md R164 (a) and (b): a flip in the sequence, the command, the payload or the checksum of a valid
frame fails at step 6, one in STX at step 1, one in ETX at step 5; each time the leading byte is dropped. -/
def Obligations.SingleBitFlipOutsideLenIsRejected : Prop :=
  ∀ (seq : Half) (cmd : Byte) (p rest : List Byte) (k : Nat), p.length ≤ 252 →
    (16 ≤ k → k < 8 * (p.length + 7) →
      ∃ c, pass (flipBit (frameBytes seq cmd p) k ++ rest) = .drop .badChecksum (some c)) ∧
    (k < 8 → pass (flipBit (frameBytes seq cmd p) k ++ rest) = .drop .notStx none) ∧
    (8 * (p.length + 7) ≤ k → k < 8 * (p.length + 8) →
      pass (flipBit (frameBytes seq cmd p) k ++ rest) = .drop .badTrailer none)

/-- 42_stream_decoder.md R166: with `k` bytes of a valid frame buffered, `TRY_DECODE` returns nothing and leaves the
buffer unchanged, at the test the rule names, until the last byte is there. -/
def Obligations.PartialFrameIsNotConsumed : Prop :=
  ∀ (s : State) (seq : Half) (cmd : Byte) (p : List Byte) (k : Nat), p.length ≤ 252 →
    s.rxbuf = (frameBytes seq cmd p).take k →
    (k < p.length + 8 →
      (tryDecode s).1 = none ∧ (tryDecode s).2.rxbuf = s.rxbuf ∧
      Sys2Proof.pass s.rxbuf =
        .wait (if k = 0 then .noBytes else if k < 8 then .tooFewBytes else .frameIncomplete)) ∧
    (k = p.length + 8 → (tryDecode s).1 = some ⟨seq, cmd, p⟩ ∧ (tryDecode s).2.rxbuf = [])

/-- 42_stream_decoder.md R167: two valid frames in one buffer decode, one call each, in order. -/
def Obligations.BackToBackFramesDecodeInOrder : Prop :=
  ∀ (s : State) (seq seq' : Half) (cmd cmd' : Byte) (p p' f f' : List Byte),
    encodeFrame seq cmd p = some f → encodeFrame seq' cmd' p' = some f' → s.rxbuf = f ++ f' →
    (tryDecode s).1 = some ⟨seq, cmd, p⟩ ∧ (tryDecode s).2.rxbuf = f' ∧
      (tryDecode (tryDecode s).2).1 = some ⟨seq', cmd', p'⟩ ∧ (tryDecode (tryDecode s).2).2.rxbuf = []

/-- 42_stream_decoder.md R150: `RX_APPEND` adds a byte at the end, and is refused on a full buffer. -/
def Obligations.RxAppendAddsOneByteOrIsRefused : Prop :=
  ∀ (s : State) (later : List Op) (b : Byte), s.asks (.rxAppend b) later →
    (s.rxbuf.length < s.straps.rxbufCap →
      step s = .next { s with ops := later, rxbuf := s.rxbuf ++ [b], activity := .idle, result := .done }) ∧
    (¬ s.rxbuf.length < s.straps.rxbufCap → step s = .refused .rxbufFull)

/-- 20_memory.md R52: `RXBUF` loses bytes at its front only and gains them at its end only, one at a time; no byte inside
it is overwritten, reordered or inserted. -/
def Obligations.BufferChangesAtItsEndsOnly : Prop :=
  ∀ s t : State, step s = .next t →
    ∃ dropped kept added, s.rxbuf = dropped ++ kept ∧ t.rxbuf = kept ++ added ∧ added.length ≤ 1

/-! The transport unit. -/

/-- 43_transport.md R180 to R182: the scalar sends, low byte first. -/
def Obligations.ScalarSendsPutBytesLowFirst : Prop :=
  ∀ (s : State) (later : List Op),
    (∀ v, s.asks (.sendU8 v) later →
      step s = .next
        { s with
          ops := later
          wireOut := s.wireOut ++ [v]
          events := s.events ++ [.sent 1]
          activity := .idle
          result := .done }) ∧
    (∀ v : Half, s.asks (.sendU16 v) later →
      step s = .next
        { s with
          ops := later
          wireOut := s.wireOut ++ [v.extractLsb' 0 8, v.extractLsb' 8 8]
          events := s.events ++ [.sent 2]
          activity := .idle
          result := .done }) ∧
    (∀ v : Word, s.asks (.sendU32 v) later →
      step s = .next
        { s with
          ops := later
          wireOut := s.wireOut ++
            [v.extractLsb' 0 8, v.extractLsb' 8 8, v.extractLsb' 16 8, v.extractLsb' 24 8]
          events := s.events ++ [.sent 4]
          activity := .idle
          result := .done })

/-- 43_transport.md R183 to R185: a scalar receive whose bytes all come, and one in which a `Timeout` comes first, by the
environment's answer or because nothing is queued: it fails, and the bytes already taken are lost. (The steps are counted
as the model cuts them, the start one of its own: its choice, log 1.) -/
def Obligations.ScalarReceivesAssembleOrFail : Prop :=
  ∀ (s : State) (later : List Op) (rest : List Byte),
    (∀ b0, s.asks .recvU8 later → s.wireIn = b0 :: rest → (∀ a ∈ s.timeouts.take 1, a = false) →
      run 2 s = .next
        { s with
          ops := later
          wireIn := rest
          timeouts := s.timeouts.drop 1
          xerr := false
          activity := .idle
          result := .u8 b0 }) ∧
    (∀ b0 b1, s.asks .recvU16 later → s.wireIn = b0 :: b1 :: rest → (∀ a ∈ s.timeouts.take 2, a = false) →
      run 3 s = .next
        { s with
          ops := later
          wireIn := rest
          timeouts := s.timeouts.drop 2
          xerr := false
          activity := .idle
          result := .u16 (le16 b0 b1) }) ∧
    (∀ b0 b1 b2 b3, s.asks .recvU32 later → s.wireIn = b0 :: b1 :: b2 :: b3 :: rest →
      (∀ a ∈ s.timeouts.take 4, a = false) →
      run 5 s = .next
        { s with
          ops := later
          wireIn := rest
          timeouts := s.timeouts.drop 4
          xerr := false
          activity := .idle
          result := .u32 (le32 b0 b1 b2 b3) }) ∧
    (∀ (o : Op) (size : Nat) (taken : List Byte), (o, size) ∈ [(.recvU8, 1), (.recvU16, 2), (.recvU32, 4)] →
      taken.length < size → s.asks o later → s.wireIn = taken ++ rest →
      (∀ a ∈ s.timeouts.take taken.length, a = false) →
      ((s.timeouts.drop taken.length).head? = some true ∨ rest = []) →
      run (taken.length + 2) s = .next
        { s with
          ops := later
          wireIn := rest
          timeouts := s.timeouts.drop (taken.length + 1)
          xerr := true
          activity := .idle
          result := .fail })

/-- 43_transport.md R187: the client's `RECV_PACKET`: its start, and one turn of its loop: the Packet `TRY_DECODE` gives,
or a `Timeout`, or one more byte; the turn that takes a byte is the same whoever runs the `RECV_PACKET`. (That `HS_STATE`
is not `AwaitingResponse` while a host's client runs a `RECV_PACKET` of its own is part of the invariant,
`EveryStepKeepsTheInvariant`.) -/
def Obligations.RecvPacketLoop : Prop :=
  ∀ s : State,
    (∀ later, s.asks .recvPacket later → step s = .next { s with ops := later, activity := .packet .client }) ∧
    (∀ who t b u, s.configured → s.activity = .packet who → tryDecode s = (none, t) → recv t = (.byte b, u) →
      step s = .next { u with rxbuf := u.rxbuf ++ [b] }) ∧
    (∀ t u, s.configured → s.activity = .packet .client → tryDecode s = (none, t) → recv t = (.timeout, u) →
      step s = .next { u with xerr := true, activity := .idle, result := .noPacket }) ∧
    (∀ p t, s.configured → s.activity = .packet .client → tryDecode s = (some p, t) →
      (s.straps.role = .host → s.hsState ≠ .awaitingResponse) →
      step s = .next { t with xerr := false, activity := .idle, result := .packet p })

/-- A `RECV_PACKET`, whoever runs it, that starts on an empty buffer while the wire delivers a whole frame: each byte is
taken and nothing is decoded early; then the Packet is delivered and the bytes behind the frame are still on the wire.
(That the bytes of `PKT_PAYLOAD` behind the payload keep what they held is the model's choice, log 5.) -/
def Obligations.RecvPacketTakesAFrameByteByByte : Prop :=
  ∀ (s : State) (who : Caller) (seq : Half) (cmd : Byte) (p rest : List Byte), p.length ≤ 252 →
    s.configured → s.activity = .packet who → s.rxbuf = [] → s.wireIn = frameBytes seq cmd p ++ rest → s.delivers →
    run (p.length + 8) s = .next { s with rxbuf := frameBytes seq cmd p, wireIn := rest, pktValid := false } ∧
    run (p.length + 9) s =
      deliver who ⟨seq, cmd, p⟩
        { s with
          rxbuf := []
          wireIn := rest
          crcReg := checksum (frameBody seq cmd p)
          pktValid := true
          pktSeq := seq
          pktCmd := cmd
          pktPlen := BitVec.ofNat 8 p.length
          pktPayload := p ++ s.pktPayload.drop p.length }

/-- 43_transport.md R189: filled by `RECV_PACKET` only, the buffer holds at most 260 bytes at every moment and at most 259
whenever `RECV_PACKET` is not running; a `NoPacket` leaves it empty or led by 0x7E, a Packet leaves at most 251 bytes. -/
def Obligations.BufferBoundUnderRecvPacket : Prop :=
  (∀ s : State, s.bufferBound →
    s.rxbuf.length ≤ 260 ∧ ((∀ who, s.activity ≠ .packet who) → s.rxbuf.length ≤ 259)) ∧
  (∀ s t : State, s.bufferBound → s.feedsByRecv → step s = .next t →
    t.bufferBound ∧
      (∀ who, s.activity = .packet who →
        (t.activity = .idle → t.pktValid = false → t.rxbuf = [] ∨ t.rxbuf.head? = some 0x7E#8) ∧
        (t.pktValid = true → t.rxbuf.length ≤ 251)))

/-! The handshake, host side. -/

/-- The start of `HS_ATTEMPT` (44_handshake.md R211) and of `HS_ESTABLISH` (R215): one HELLO with the host's own version
and the client's operands; `HS_REASON` is NONE, and the response is awaited; `HS_ESTABLISH` clears `SESSION`, makes
`ATTEMPT` 1 and takes the first value of its list (the model's reading of `seqs[ATTEMPT]`, log 10). -/
def Obligations.HsAttemptSendsHello : Prop :=
  ∀ (s : State) (later : List Op) (seq : Half) (caps : Byte), s.straps.role = .host →
    (s.asks (.hsAttempt seq caps) later →
      step s = .next
        (State.sent seq 0x10#8 [s.straps.protocolVersion, caps]
          { s with
            ops := later
            hsReason := .none
            hsState := .awaitingResponse
            activity := .packet (.handshake s.straps.hsRecvAttempts none) })) ∧
    (∀ more, s.asks (.hsEstablish (seq :: more) caps) later → more.length + 1 = s.straps.hsMaxAttempts →
      step s = .next
        (State.sent seq 0x10#8 [s.straps.protocolVersion, caps]
          { s with
            ops := later
            session := .none
            attempt := 1
            hsReason := .none
            hsState := .awaitingResponse
            activity := .packet (.handshake s.straps.hsRecvAttempts (some ⟨more, caps⟩)) }))

/-- The model's treatment (log 12) of an operation that belongs to the other role (00_scope.md R3): it is refused. -/
def Obligations.OperationOfTheOtherRoleIsRefused : Prop :=
  ∀ (s : State) (later : List Op),
    (∀ seq caps, s.asks (.hsAttempt seq caps) later → s.straps.role = .device → step s = .refused .wrongRole) ∧
    (∀ seqs caps, s.asks (.hsEstablish seqs caps) later → s.straps.role = .device →
      step s = .refused .wrongRole) ∧
    (s.asks .devPoll later → s.straps.role = .host → step s = .refused .wrongRole)

/-- 44_handshake.md R213: the classification of the response, by every kind of Packet and payload. -/
def Obligations.HostClassifiesTheResponse : Prop :=
  ∀ (s : State) (seq : Half), s.awaits →
    (∀ code more, exec (.nack seq (code :: more)) s =
      .next { s with hsErrcode := code, hsReason := .nackCode, hsState := .rejected }) ∧
    exec (.nack seq []) s = .next { s with hsReason := .nackEmpty, hsState := .rejected } ∧
    (∀ p, p.length < 3 → exec (.ack seq p) s = .next { s with hsReason := .ackShort, hsState := .rejected }) ∧
    (∀ version status id more, exec (.ack seq (version :: status :: id :: more)) s =
      .next
        (if version ≠ s.straps.protocolVersion then
          { s with
            peerVer := version
            peerStatus := status
            peerId := id
            hsReason := .ackVersion
            hsState := .rejected }
        else if status ≠ 0x00#8 then
          { s with
            peerVer := version
            peerStatus := status
            peerId := id
            hsReason := .ackStatus
            hsState := .rejected }
        else
          { s with
            peerVer := version
            peerStatus := status
            peerId := id
            hsReason := .none
            hsState := .accepted })) ∧
    (∀ i, i.toPacket.command ≠ 0x11#8 → i.toPacket.command ≠ 0x12#8 →
      exec i s = .next { s with hsReason := .unexpectedCmd, hsState := .rejected }) ∧
    (∀ p, Instr.ofPacket .host p = none →
      actOn p s = .next { s with hsReason := .unexpectedCmd, hsState := .rejected })

/-- A `RECV_PACKET` of an attempt that ends in `NoPacket` (44_handshake.md R212, R215), whatever its last `TRY_DECODE`
discarded: the next receive attempt, or `TimedOut` and, inside `HS_ESTABLISH`, the next attempt or `FAILED`. (That the
end of an attempt and the next HELLO are one step is the model's choice, log 1, and that the attempts take the values of
the list in order its reading, log 10.) -/
def Obligations.AttemptWithoutResponse : Prop :=
  ∀ (s t u : State) (left : Nat) (retry : Option Retry), s.configured →
    s.activity = .packet (.handshake left retry) → tryDecode s = (none, t) → recv t = (.timeout, u) →
    (2 ≤ left →
      step s = .next { u with xerr := true, activity := .packet (.handshake (left - 1) retry) }) ∧
    (left ≤ 1 → retry = none →
      step s = .next
        { u with
          xerr := true
          hsState := .timedOut
          hsReason := .noResponse
          activity := .idle
          result := .done }) ∧
    (∀ q more caps, left ≤ 1 → retry = some ⟨q :: more, caps⟩ → s.attempt < s.straps.hsMaxAttempts →
      step s = .next
        (State.sent q 0x10#8 [s.straps.protocolVersion, caps]
          { u with
            xerr := true
            attempt := s.attempt + 1
            hsReason := .none
            hsState := .awaitingResponse
            activity := .packet (.handshake s.straps.hsRecvAttempts (some ⟨more, caps⟩)) })) ∧
    (∀ r, left ≤ 1 → retry = some r → s.attempt = s.straps.hsMaxAttempts →
      step s = .next
        { u with
          xerr := true
          hsState := .timedOut
          hsReason := .noResponse
          session := .failed
          activity := .idle
          result := .done })

/-- 44_handshake.md R224 (c): on a line that stays quiet `HS_ESTABLISH` sends one HELLO for each attempt and reports
failure, after exactly one step for the start and one for each receive attempt. (The steps are counted as the model cuts
them, log 1; that the HELLOs take the values of the list in order is its reading, log 10.) -/
def Obligations.SilentLineFailsAfterTheAttemptBudget : Prop :=
  ∀ (s : State) (seqs : List Half) (caps : Byte) (later : List Op),
    s.asks (.hsEstablish seqs caps) later → s.straps.role = .host → seqs.length = s.straps.hsMaxAttempts →
    Waiting s.rxbuf → s.wireIn = [] →
    ∃ t, run (1 + s.straps.hsMaxAttempts * s.straps.hsRecvAttempts) s = .next t ∧
      t.session = .failed ∧ t.hsState = .timedOut ∧ t.hsReason = .noResponse ∧
      t.attempt = s.straps.hsMaxAttempts ∧ t.xerr = true ∧ t.pktValid = false ∧ t.activity = .idle ∧
      t.ops = later ∧ t.rxbuf = s.rxbuf ∧
      t.wireOut = s.wireOut ++ seqs.flatMap fun q => frameBytes q 0x10#8 [s.straps.protocolVersion, caps]

/-- 10_state.md R38 (f), 44_handshake.md R214: when `SESSION` becomes `ESTABLISHED`, `HS_STATE` is `Accepted`, and the ACK
carried the host's own version and `STATUS_OK`. -/
def Obligations.EstablishedMeansAccepted : Prop :=
  ∀ s t : State, s.Inv → step s = .next t → s.session ≠ .established → t.session = .established →
    t.hsState = .accepted ∧ t.hsReason = .none ∧ t.peerVer = s.straps.protocolVersion ∧ t.peerStatus = 0x00#8 ∧
      ∃ p, (tryDecode s).1 = some p ∧ p.command = 0x11#8

/-- Outside response position a Packet is the client's (44_handshake.md R216): every instruction at a host at rest, the
GET replies among them, changes the result and nothing else. -/
def Obligations.HostHandsThePacketToItsClient : Prop :=
  ∀ (i : Instr) (s : State), s.hostAtRest → exec i s = .next { s with result := .packet i.toPacket }

/-! The handshake, device side. -/

/-- 44_handshake.md R217: the HELLO handler, whatever the gate, for a payload of every length. -/
def Obligations.HelloHandler : Prop :=
  ∀ (s : State) (seq : Half) (p : List Byte), s.framedDevice →
    exec (.hello seq p) s =
      .next
        (if p.head? = some s.straps.protocolVersion then
          State.sent seq 0x11#8 [s.straps.protocolVersion, 0x00#8, s.straps.deviceId]
            { s with
              peerVersion := (p[0]?).getD s.peerVersion
              peerCaps := (p[1]?).getD s.peerCaps
              hsLatch := true }
        else
          State.sent seq 0x12#8 [0xA2#8]
            { s with
              peerVersion := (p[0]?).getD s.peerVersion
              peerCaps := (p[1]?).getD s.peerCaps })

/-- 44_handshake.md R218: with the gate closed every Packet but HELLO is dropped, without any effect. -/
def Obligations.ClosedGateDropsEveryCommandButHello : Prop :=
  ∀ s : State, s.gateClosed →
    (∀ i : Instr, (∀ seq p, i ≠ .hello seq p) → exec i s = .next s) ∧
    (∀ p : Packet, p.command ≠ 0x10#8 → actOn p s = .next s)

/-- 10_state.md R25: no step clears `HS_LATCH`; what sets it is a HELLO whose version matches, at a device; and
`PEER_VERSION` and `PEER_CAPS` change at a HELLO only. -/
def Obligations.LatchOpensByAMatchingHelloOnly : Prop :=
  ∀ s t : State, step s = .next t →
    (s.hsLatch = true → t.hsLatch = true) ∧
    (s.hsLatch = false → t.hsLatch = true →
      s.straps.role = .device ∧
        ∃ p, (tryDecode s).1 = some p ∧ p.command = 0x10#8 ∧ p.payload.head? = some s.straps.protocolVersion) ∧
    (t.peerVersion ≠ s.peerVersion ∨ t.peerCaps ≠ s.peerCaps →
      s.straps.role = .device ∧ ∃ p, (tryDecode s).1 = some p ∧ p.command = 0x10#8)

/-- 44_handshake.md R220: the capability byte is stored and does nothing else: two HELLOs that differ in it leave states
that differ in `PEER_CAPS` only. -/
def Obligations.CapabilityByteHasNoOtherEffect : Prop :=
  ∀ (s : State) (seq : Half) (version caps caps' : Byte) (more : List Byte), s.framedDevice →
    ∃ t, exec (.hello seq (version :: caps :: more)) s = .next t ∧ t.peerCaps = caps ∧
      exec (.hello seq (version :: caps' :: more)) s = .next { t with peerCaps := caps' }

/-- 20_memory.md R62: two Packets that differ in their sequence number only are treated alike. At a host that awaits a
response the effect is the same; at a device the states differ at most in the bytes of one response and its scratch
checksum. -/
def Obligations.SequenceNumberIsNotExamined : Prop :=
  ∀ (s : State) (seq seq' : Half) (cmd : Byte) (p : List Byte),
    (s.awaits → actOn ⟨seq, cmd, p⟩ s = actOn ⟨seq', cmd, p⟩ s) ∧
    (s.framedDevice →
      ∃ t t', actOn ⟨seq, cmd, p⟩ s = .next t ∧ actOn ⟨seq', cmd, p⟩ s = .next t' ∧
        t.wireOut.length = t'.wireOut.length ∧
        { t with wireOut := [], crcReg := 0#16 } = { t' with wireOut := [], crcReg := 0#16 })

/-! The dispatcher. -/

/-- 45_dispatcher.md R254: SET_ANGLE_CALIBRATIONS with the gate open: the 18 calls in ascending channel order, then the
ACK, sent after the last call; nothing for a short payload. -/
def Obligations.SetAngleCalibrations : Prop :=
  ∀ (s : State) (seq : Half) (p : List Byte), s.gateOpen →
    (p.length < 72 → exec (.setAngleCalibrations seq p) s = .next s) ∧
    (72 ≤ p.length →
      exec (.setAngleCalibrations seq p) s =
        .next
          (State.sent seq 0x11#8 [s.straps.protocolVersion, 0x00#8, s.straps.deviceId]
            { s with
              events := s.events ++ (List.range 18).map fun c =>
                .setCalibration c (le16 (byteAt p (4 * c)) (byteAt p (4 * c + 1)))
                  (le16 (byteAt p (4 * c + 2)) (byteAt p (4 * c + 3))) }))

/-- 45_dispatcher.md R255: SET_TARGET_ANGLE with the gate open. -/
def Obligations.SetTargetAngle : Prop :=
  ∀ (s : State) (seq : Half) (p : List Byte), s.gateOpen →
    (p.length < 3 → exec (.setTargetAngle seq p) s = .next s) ∧
    (∀ channel lo hi more, p = channel :: lo :: hi :: more →
      (18 ≤ channel.toNat → exec (.setTargetAngle seq p) s = .next s) ∧
      (channel.toNat < 18 →
        exec (.setTargetAngle seq p) s =
          .next
            (if s.straps.ackSetCommands then
              State.sent seq 0x11#8 [s.straps.protocolVersion, 0x00#8, s.straps.deviceId]
                { s with events := s.events ++ [.setTarget channel (le16 lo hi)] }
            else { s with events := s.events ++ [.setTarget channel (le16 lo hi)] })))

/-- 45_dispatcher.md R256: SET_POWER_RELAY with the gate open: false for 0, true for 1, other values ignored. -/
def Obligations.SetPowerRelay : Prop :=
  ∀ (s : State) (seq : Half) (p : List Byte), s.gateOpen →
    (p = [] → exec (.setPowerRelay seq p) s = .next s) ∧
    (∀ v more, p = v :: more → 2 ≤ v.toNat → exec (.setPowerRelay seq p) s = .next s) ∧
    (∀ v more flag, p = v :: more → (v = 0x00#8 ∧ flag = false ∨ v = 0x01#8 ∧ flag = true) →
      exec (.setPowerRelay seq p) s =
        .next
          (if s.straps.ackSetCommands then
            State.sent seq 0x11#8 [s.straps.protocolVersion, 0x00#8, s.straps.deviceId]
              { s with events := s.events ++ [.relaySet flag] }
          else { s with events := s.events ++ [.relaySet flag] }))

/-- 45_dispatcher.md R257: GET_ANGLE_CALIBRATIONS with the gate open: for each channel two values, whatever the actuator
returns, in the reply's 144 bytes. -/
def Obligations.GetAngleCalibrations : Prop :=
  ∀ (s : State) (seq : Half) (p : List Byte), s.gateOpen →
    ∃ resp : List Byte, resp.length = 144 ∧
      (∀ c, c < 18 →
        slice resp (8 * c) (8 * c + 3) = bytes32 (s.coming (2 * c)) ∧
        slice resp (8 * c + 4) (8 * c + 7) = bytes32 (s.coming (2 * c + 1))) ∧
      exec (.getAngleCalibrations seq p) s =
        .next
          (State.sent seq 0x04#8 resp
            { s.drawn 36 with events := s.events ++ (List.range 18).map fun c => .getCalibration c })

/-- 45_dispatcher.md R258, R259: GET_CURRENT and GET_VOLTAGE with the gate open, whatever the sensor returns. -/
def Obligations.GetCurrentAndGetVoltage : Prop :=
  ∀ (s : State) (seq : Half) (p : List Byte), s.gateOpen →
    exec (.getCurrent seq p) s =
      .next
        (State.sent seq 0x05#8 (bytes32 (s.coming 0)) { s.drawn 1 with events := s.events ++ [.sensorCurrent] }) ∧
    exec (.getVoltage seq p) s =
      .next
        (State.sent seq 0x06#8 (bytes32 (s.coming 0)) { s.drawn 1 with events := s.events ++ [.sensorVoltage] })

/-- 45_dispatcher.md R260: GET_SENSOR with the gate open; the channel is not range-checked. -/
def Obligations.GetSensor : Prop :=
  ∀ (s : State) (seq : Half), s.gateOpen →
    exec (.getSensor seq []) s = .next s ∧
    ∀ channel more,
      exec (.getSensor seq (channel :: more)) s =
        .next
          (State.sent seq 0x07#8 (bytes32 (s.coming 0))
            { s.drawn 1 with events := s.events ++ [.sensorRead channel] })

/-- The model's reading of a reply's frame at a device (log 17): it is the request's frame, and acts as the request. -/
def Obligations.ReplyFrameAtADeviceIsTheRequest : Prop :=
  ∀ (s : State) (seq : Half) (p : List Byte), s.straps.role = .device →
    exec (.getAngleCalibrationsReply seq p) s = exec (.getAngleCalibrations seq p) s ∧
    exec (.getCurrentReply seq p) s = exec (.getCurrent seq p) s ∧
    exec (.getVoltageReply seq p) s = exec (.getVoltage seq p) s ∧
    exec (.getSensorReply seq p) s = exec (.getSensor seq p) s

/-- 45_dispatcher.md R252, R262: ACK, NACK and every code outside the catalogue are ignored by a device, its gate open or
closed. -/
def Obligations.DeviceIgnoresAckNackAndUnassignedCodes : Prop :=
  ∀ s : State, s.framedDevice →
    (∀ seq p, exec (.ack seq p) s = .next s ∧ exec (.nack seq p) s = .next s) ∧
    (∀ p, Instr.ofPacket .device p = none → actOn p s = .next s)

/-- 45_dispatcher.md R253: a payload shorter than the handler needs does nothing; of a longer one only the first bytes
count. -/
def Obligations.PayloadLengthPolicy : Prop :=
  ∀ (s : State) (seq : Half) (p : List Byte) (command : Half → List Byte → Instr) (needed : Nat), s.gateOpen →
    (command, needed) ∈
      [(.setAngleCalibrations, 72), (.setTargetAngle, 3), (.setPowerRelay, 1), (.getAngleCalibrations, 0),
        (.getCurrent, 0), (.getVoltage, 0), (.getSensor, 1)] →
    (p.length < needed → exec (command seq p) s = .next s) ∧
    (needed ≤ p.length → exec (command seq p) s = exec (command seq (p.take needed)) s)

/-- 45_dispatcher.md R250, R251: `DEV_POLL`: its start, and each pass of its `RECV_PACKET`: a Packet, of any code, is
treated as the pseudocode treats it with the routing table (which knows nothing of the instructions that `exec`
dispatches on); a `Timeout` ends the poll; otherwise one more byte is taken. -/
def Obligations.DevPollFollowsTheRoutingTable : Prop :=
  ∀ s : State, s.straps.role = .device →
    (∀ later, s.asks .devPoll later → step s = .next { s with ops := later, activity := .packet .devPoll }) ∧
    (s.configured → s.activity = .packet .devPoll →
      (∀ p t, tryDecode s = (some p, t) →
        step s = .next (devPollPacket p { t with xerr := false, activity := .idle, result := .done })) ∧
      (∀ t u, tryDecode s = (none, t) → recv t = (.timeout, u) →
        step s = .next { u with xerr := true, activity := .idle, result := .done }) ∧
      (∀ t b u, tryDecode s = (none, t) → recv t = (.byte b, u) →
        step s = .next { u with rxbuf := u.rxbuf ++ [b] }))

/-- 45_dispatcher.md R265, R268: an instance of the RAW variant, of either role, has no steps. -/
def Obligations.RawVariantIsRefused : Prop :=
  ∀ s : State, s.straps.dispatchVariant = .raw →
    (s.straps.wf = true → step s = .refused .rawVariant) ∧ ∀ i : Instr, exec i s = .refused .rawVariant

/-- 45_dispatcher.md R263, 44_handshake.md R221, 20_memory.md R61: an instruction at a device sends at most one frame,
after all its collaborator calls; its sequence number is the request's, its command ACK, NACK or the request's own
code. -/
def Obligations.AtMostOneResponseWithTheRequestsSequence : Prop :=
  ∀ (i : Instr) (s : State), s.framedDevice →
    ∃ t calls, exec i s = .next t ∧ (∀ e ∈ calls, e.isCall = true) ∧
      (t.wireOut = s.wireOut ∧ t.events = s.events ++ calls ∨
        ∃ cmd payload, payload.length ≤ 252 ∧
          (cmd = 0x11#8 ∨ cmd = 0x12#8 ∨ cmd = i.toPacket.command) ∧
          t.wireOut = s.wireOut ++ frameBytes i.toPacket.sequence cmd payload ∧
          t.events = s.events ++ calls ++ [.sent (payload.length + 8)])

/-! Frames. -/

/-- What an instruction leaves unchanged at a device: the straps, every byte of `RXBUF`, the holding registers and flags,
the host's registers, the wire in and the operations to come; what was sent and what was called stays; `HS_LATCH`,
`PEER_VERSION` and `PEER_CAPS` change by HELLO only; values are drawn by the GET commands only. -/
def Obligations.InstructionFrameAtADevice : Prop :=
  ∀ (i : Instr) (s t : State), s.straps.role = .device → exec i s = .next t →
    t.straps = s.straps ∧ t.rxbuf = s.rxbuf ∧ (∀ a n, Memory.read t.rxbuf a n = Memory.read s.rxbuf a n) ∧
    t.pktValid = s.pktValid ∧ t.pktSeq = s.pktSeq ∧ t.pktCmd = s.pktCmd ∧ t.pktPlen = s.pktPlen ∧
    t.pktPayload = s.pktPayload ∧ t.xerr = s.xerr ∧ t.hsState = s.hsState ∧ t.attempt = s.attempt ∧
    t.hsReason = s.hsReason ∧ t.hsErrcode = s.hsErrcode ∧ t.peerVer = s.peerVer ∧ t.peerStatus = s.peerStatus ∧
    t.peerId = s.peerId ∧ t.session = s.session ∧ t.activity = s.activity ∧ t.ops = s.ops ∧ t.result = s.result ∧
    t.wireIn = s.wireIn ∧ t.timeouts = s.timeouts ∧
    (∃ out, t.wireOut = s.wireOut ++ out ∧ (out = [] → t.crcReg = s.crcReg)) ∧
    (∃ calls, t.events = s.events ++ calls) ∧
    ((∀ seq p, i ≠ .hello seq p) →
      t.hsLatch = s.hsLatch ∧ t.peerVersion = s.peerVersion ∧ t.peerCaps = s.peerCaps) ∧
    (i.toPacket.command.toNat < 4 ∨ 7 < i.toPacket.command.toNat →
      t.draws = s.draws ∧ t.drawCount = s.drawCount)

/-- What an instruction leaves unchanged at a host: everything but the handshake outcome and its registers in response
position, everything but the result outside it. -/
def Obligations.InstructionFrameAtAHost : Prop :=
  ∀ (i : Instr) (s t : State), s.straps.role = .host → exec i s = .next t →
    (∀ a n, Memory.read t.rxbuf a n = Memory.read s.rxbuf a n) ∧
    t = { s with
          hsState := t.hsState
          hsReason := t.hsReason
          hsErrcode := t.hsErrcode
          peerVer := t.peerVer
          peerStatus := t.peerStatus
          peerId := t.peerId
          result := t.result } ∧
    (s.hsState ≠ .awaitingResponse → t = { s with result := t.result }) ∧
    (s.hsState = .awaitingResponse →
      t.result = s.result ∧ (t.hsState = .accepted ∨ t.hsState = .rejected) ∧
        (i.toPacket.command ≠ 0x12#8 → t.hsErrcode = s.hsErrcode) ∧
        (i.toPacket.command ≠ 0x11#8 →
          t.peerVer = s.peerVer ∧ t.peerStatus = s.peerStatus ∧ t.peerId = s.peerId))

/-! Rules of the whole machine. -/

/-- 10_state.md R34, R36 (c): no step writes a strap, and what has been sent or called is never recalled. -/
def Obligations.StrapsStayAndOutputsAreNotRecalled : Prop :=
  ∀ s t : State, step s = .next t →
    t.straps = s.straps ∧ (∃ out, t.wireOut = s.wireOut ++ out) ∧ (∃ calls, t.events = s.events ++ calls) ∧
      (∃ taken, s.wireIn = taken ++ t.wireIn ∧ taken.length ≤ 1)

/-- `XERR` is written by the receive primitives only (10_state.md R33): a step that changes it goes on with a receive. -/
def Obligations.OnlyReceivesWriteXerr : Prop :=
  ∀ s t : State, step s = .next t → t.xerr ≠ s.xerr →
    (∃ width got, s.activity = .scalar width got) ∨ ∃ who, s.activity = .packet who

/-- `SESSION` and `ATTEMPT` are written by `HS_ESTABLISH` only (10_state.md R29, R32): by its start, or by a handshake in
progress that it runs. -/
def Obligations.OnlyEstablishWritesSessionAndAttempt : Prop :=
  ∀ s t : State, step s = .next t → t.session ≠ s.session ∨ t.attempt ≠ s.attempt →
    (∃ seqs caps later, s.activity = .idle ∧ s.ops = .hsEstablish seqs caps :: later) ∨
      ∃ left r, s.activity = .packet (.handshake left (some r))

/-- The state after reset, for any straps (10_state.md R37): the registers whose reset value the table gives. -/
def Obligations.ResetValues : Prop :=
  ∀ c : Straps,
    (State.resetWith c).rxbuf = [] ∧ (State.resetWith c).crcReg = 0xFFFF#16 ∧ (State.resetWith c).pktValid = false ∧
    (State.resetWith c).xerr = false ∧ (State.resetWith c).hsLatch = false ∧ (State.resetWith c).hsState = .idle ∧
    (State.resetWith c).attempt = 0 ∧ (State.resetWith c).hsReason = .none ∧ (State.resetWith c).session = .none ∧
    (State.resetWith c).straps = c

/-- The invariant holds after reset, for any straps. (Its clauses on `PKT_PLEN` and `PKT_PAYLOAD` hold by the reset
values the model chose, log 3.) -/
def Obligations.InvariantHoldsAfterReset : Prop := ∀ c : Straps, (State.resetWith c).Inv

/-- 10_state.md R38: every step keeps the invariant: the buffer within its capacity, the widths of the holding registers,
`ATTEMPT` within `HS_MAX_ATTEMPTS`, `AwaitingResponse` exactly while an attempt is in progress. -/
def Obligations.EveryStepKeepsTheInvariant : Prop := ∀ s t : State, s.Inv → step s = .next t → t.Inv

/-- An operation in progress is never refused and never faults, whatever the wire does: from a state of the invariant the
step answers a next state (43_transport.md R189: the refusal of `RX_APPEND` is unreachable). -/
def Obligations.OperationInProgressNeverStops : Prop :=
  ∀ s : State, s.Inv → s.configured → s.activity ≠ .idle → ∃ t, step s = .next t

/-- With no operation asked for, the block does nothing (70_reset_and_hazards.md R331). That this is a step at all is the
model's choice, log 1. -/
def Obligations.IdleBlockDoesNothing : Prop :=
  ∀ s : State, s.configured → s.activity = .idle → s.ops = [] → step s = .next s

/-- The client's register reads, register by register (10_state.md R20, R24, R26, R28 to R33): which role has it, what it
gives, and when it may not be read: the holding registers while `PKT_VALID` is 0, `HS_ERRCODE` while `HS_REASON` is not
`NACK_CODE`. A read changes nothing but the result. The read as an operation, its fault and its refusal are the model's
choice, log 14, 4 and 12. That `PEER_VERSION`, `PEER_CAPS`, `PEER_VER`, `PEER_STATUS` and `PEER_ID` are read before their
first write too, where R37 and 93_implementation_defined.md U11 have a model fault, is the model's unsafe choice, log 4. -/
def Obligations.RegisterReads : Prop :=
  ∀ (s : State) (later : List Op) (r : Reg), s.asks (.readReg r) later →
    (∀ v, (r, v) ∈ [(.pktValid, .bit s.pktValid), (.xerr, .bit s.xerr)] →
      step s = .next { s with ops := later, activity := .idle, result := .register v }) ∧
    (s.pktValid = true →
      ∀ v, (r, v) ∈
          [(.pktSeq, .half s.pktSeq), (.pktCmd, .byte s.pktCmd), (.pktPlen, .byte s.pktPlen),
            (.pktPayload, .bytes (s.pktPayload.take s.pktPlen.toNat))] →
        step s = .next { s with ops := later, activity := .idle, result := .register v }) ∧
    (s.pktValid = false → r ∈ [.pktSeq, .pktCmd, .pktPlen, .pktPayload] → step s = .fault (.unspecifiedRead r)) ∧
    (s.straps.role = .device →
      (∀ v, (r, v) ∈ [(.peerVersion, .byte s.peerVersion), (.peerCaps, .byte s.peerCaps)] →
        step s = .next { s with ops := later, activity := .idle, result := .register v }) ∧
      (r ∈ [.hsState, .attempt, .hsReason, .hsErrcode, .peerVer, .peerStatus, .peerId, .session] →
        step s = .refused .wrongRole)) ∧
    (s.straps.role = .host →
      (∀ v, (r, v) ∈
          [(.hsState, .hsState s.hsState), (.attempt, .count s.attempt), (.hsReason, .hsReason s.hsReason),
            (.peerVer, .byte s.peerVer), (.peerStatus, .byte s.peerStatus), (.peerId, .byte s.peerId),
            (.session, .session s.session)] →
        step s = .next { s with ops := later, activity := .idle, result := .register v }) ∧
      (r = .hsErrcode → s.hsReason = .nackCode →
        step s = .next { s with ops := later, activity := .idle, result := .register (.byte s.hsErrcode) }) ∧
      (r = .hsErrcode → s.hsReason ≠ .nackCode → step s = .fault (.unspecifiedRead r)) ∧
      (r ∈ [.peerVersion, .peerCaps] → step s = .refused .wrongRole))

/-! A step runs the decoded instruction. -/

/-- The device's poll: when the bytes at the front of `RXBUF` decode to an instruction, the step is that instruction, run
in the state that `TRY_DECODE` leaves, with `XERR` 0 and the operation at its end; the frame is gone from `RXBUF` and in
the holding registers. -/
def Obligations.PollStepRunsTheDecodedInstruction : Prop :=
  ∀ (s : State) (i : Instr) (rest : List Byte), s.configured → s.straps.role = .device →
    s.activity = .packet .devPoll → decode .device s.rxbuf = .instr i rest →
    step s = exec i (received (tryDecode s).2) ∧
      (tryDecode s).2.rxbuf = rest ∧ (tryDecode s).2.heldPacket = some i.toPacket

/-- The host: the same for the Packet of the client's `RECV_PACKET`, and for the response of an attempt, after which the
attempt, and inside `HS_ESTABLISH` the loop, goes on. (That the end of an attempt and the HELLO of the next are one step is the
model's choice, log 1, and that the attempts take the values of the list in order its reading, log 10.) -/
def Obligations.HostStepRunsTheDecodedInstruction : Prop :=
  ∀ (s : State) (i : Instr) (rest : List Byte), s.configured → s.straps.role = .host →
    decode .host s.rxbuf = .instr i rest →
    (s.activity = .packet .client → step s = exec i (received (tryDecode s).2)) ∧
    (∀ left retry, s.activity = .packet (.handshake left retry) →
      ∃ t, exec i (received (tryDecode s).2) = .next t ∧
        (retry = none → step s = .next { t with activity := .idle, result := .done }) ∧
        (∀ r, retry = some r → t.hsState = .accepted →
          step s = .next { t with session := .established, activity := .idle, result := .done }) ∧
        (∀ q more caps, retry = some ⟨q :: more, caps⟩ → t.hsState ≠ .accepted →
          s.attempt < s.straps.hsMaxAttempts →
          step s = .next
            (State.sent q 0x10#8 [s.straps.protocolVersion, caps]
              { t with
                attempt := s.attempt + 1
                hsReason := .none
                hsState := .awaitingResponse
                activity := .packet (.handshake s.straps.hsRecvAttempts (some ⟨more, caps⟩)) })) ∧
        (∀ r, retry = some r → t.hsState ≠ .accepted → s.attempt = s.straps.hsMaxAttempts →
          step s = .next { t with session := .failed, activity := .idle, result := .done }))

/-- A few frames, written out byte by byte from 30_encoding.md R81 and the vectors, decode to the instructions they
stand for. -/
def Obligations.WrittenFramesDecode : Prop :=
  decode .device [0x7E#8, 0x06#8, 0x34#8, 0x12#8, 0x02#8, 0x05#8, 0x2C#8, 0x01#8, 0x2D#8, 0x6C#8, 0x7F#8] =
    .instr (.setTargetAngle 0x1234#16 [0x05#8, 0x2C#8, 0x01#8]) [] ∧
  decode .device [0x7E#8, 0x03#8, 0x03#8, 0x00#8, 0x05#8, 0xE9#8, 0x16#8, 0x7F#8] = .instr (.getCurrent 3#16 []) [] ∧
  decode .host [0x7E#8, 0x07#8, 0x03#8, 0x00#8, 0x05#8, 0x00#8, 0x00#8, 0xC0#8, 0x3F#8, 0x1B#8, 0xDC#8, 0x7F#8] =
    .instr (.getCurrentReply 3#16 [0x00#8, 0x00#8, 0xC0#8, 0x3F#8]) [] ∧
  decode .device [0x7E#8, 0x05#8, 0x01#8, 0x00#8, 0x10#8, 0x01#8, 0x00#8, 0x12#8, 0x97#8, 0x7F#8] =
    .instr (.hello 1#16 [0x01#8, 0x00#8]) []

/-! Two instances on a wire. -/

/-- 60_exceptions.md R315, 20_memory.md R57: a step of one side changes the other side only by queueing for it, in order,
the bytes that were sent. -/
def Obligations.SidesShareNothingButTheWire : Prop :=
  ∀ (l m : Link) (side : Role), l.turn (.step side) = .next m →
    ∃ t, step (l.side side) = .next t ∧ m.side side = { t with wireOut := [] } ∧
      m.side (otherSide side) =
        { l.side (otherSide side) with wireIn := (l.side (otherSide side)).wireIn ++ t.wireOut }

/-- 44_handshake.md R224 (a) and (b): a host that makes one attempt and a device that polls once, joined by a quiet wire,
end in `Accepted` with the device's identity and the gate open when their versions match, and in `Rejected` with 0xA2
and the gate as it was when they differ. (The turns are the model's, log 1, 21.) -/
def Obligations.HandshakeOverTheLink : Prop :=
  ∀ (l : Link) (seq : Half) (caps : Byte),
    l.host.straps.role = .host → l.device.straps.role = .device →
    l.host.asks (.hsAttempt seq caps) [] → l.device.asks .devPoll [] →
    l.host.rxbuf = [] → l.device.rxbuf = [] → l.host.wireIn = [] → l.device.wireIn = [] →
    l.host.wireOut = [] → l.device.wireOut = [] → l.host.delivers → l.device.delivers →
    ∃ m,
      l.run (.step .host :: (List.replicate 12 (.step .device) ++ List.replicate 12 (.step .host))) = .next m ∧
      (l.device.straps.protocolVersion = l.host.straps.protocolVersion →
        m.host.hsState = .accepted ∧ m.host.hsReason = .none ∧
          m.host.peerVer = l.host.straps.protocolVersion ∧ m.host.peerStatus = 0x00#8 ∧
          m.host.peerId = l.device.straps.deviceId ∧ m.device.hsLatch = true) ∧
      (l.device.straps.protocolVersion ≠ l.host.straps.protocolVersion →
        m.host.hsState = .rejected ∧ m.host.hsReason = .nackCode ∧ m.host.hsErrcode = 0xA2#8 ∧
          m.device.hsLatch = l.device.hsLatch)
end

