-- ==== Sys2Proof/Laws/Bytes.lean ====
section
/-! SUPPORT. Byte order: taking a value apart and putting it together are inverse, and reads of lists. -/

namespace Sys2Proof.Machine

open Sys2Proof

@[simp] theorem le16_lo8_hi8 (v : Half) : le16 (lo8 v) (hi8 v) = v := by
  apply BitVec.eq_of_getLsbD_eq
  intro i hi
  simp only [le16, lo8, hi8, BitVec.truncate_eq_setWidth, BitVec.getLsbD_or, BitVec.getLsbD_setWidth,
    BitVec.getLsbD_shiftLeft, BitVec.getLsbD_extractLsb']
  by_cases h : i < 8
  · simp [h, hi]
  · have h1 : 8 + (i - 8) = i := by omega
    have h2 : i - 8 < 8 := by omega
    have h3 : i - 8 < 16 := by omega
    simp [h, hi, h1, h2, h3]

@[simp] theorem lo8_le16 (a b : Byte) : lo8 (le16 a b) = a := by
  apply BitVec.eq_of_getLsbD_eq
  intro i hi
  simp [le16, lo8, hi]
  intro; omega

@[simp] theorem hi8_le16 (a b : Byte) : hi8 (le16 a b) = b := by
  apply BitVec.eq_of_getLsbD_eq
  intro i hi
  have h1 : 8 + i < 16 := by omega
  simp [le16, hi8, hi, h1]

theorem bytes16_le16 (a b : Byte) : bytes16 (le16 a b) = [a, b] := by simp [bytes16]

@[simp] theorem bytes16_length (v : Half) : (bytes16 v).length = 2 := rfl

@[simp] theorem bytes32_length (v : Word) : (bytes32 v).length = 4 := rfl

@[simp] theorem byteAt_cons_zero (b : Byte) (m : List Byte) : byteAt (b :: m) 0 = b := rfl

@[simp] theorem byteAt_cons_succ (b : Byte) (m : List Byte) (i : Nat) : byteAt (b :: m) (i + 1) = byteAt m i := by
  simp [byteAt]

theorem byteAt_append_left {m : List Byte} (k : List Byte) {i : Nat} (h : i < m.length) :
    byteAt (m ++ k) i = byteAt m i := by
  simp [byteAt, List.getElem?_append_left h]

theorem byteAt_append_right (m k : List Byte) (i : Nat) : byteAt (m ++ k) (m.length + i) = byteAt k i := by
  simp [byteAt, List.getElem?_append_right]

/-- A slice from index `i` to the last byte of `m`, inclusive, of bytes that begin with `m`. -/
theorem slice_front (m k : List Byte) (i : Nat) (h : i ≤ m.length) (hpos : 0 < m.length) :
    slice (m ++ k) i (m.length - 1) = m.drop i := by
  have h1 : m.length - 1 + 1 - i = (m.drop i).length := by simp; omega
  rw [slice, h1, List.drop_append_of_le_length h, List.take_left]

/-- Bytes are the slices they are made of. -/
theorem take_append_slice (m : List Byte) (i j : Nat) (h : i ≤ j + 1) :
    m.take i ++ slice m i j = m.take (j + 1) := by
  rw [slice, ← List.drop_take, show m.take i = (m.take (j + 1)).take i by simp [List.take_take, h],
    List.take_append_drop]

end Sys2Proof.Machine
end

