-- ==== Sys2Proof/Laws/Crc.lean ====
section
/-! SUPPORT. The checksum as a fold over its bytes. -/

namespace Sys2Proof.Machine

open Sys2Proof

@[simp] theorem settle_eq {α : Type} (c : Half) (k : Half → α) : settle c k = k c := by
  unfold settle
  split
  next h => rw [show c = 0#16 from BitVec.eq_of_toNat_eq h]
  next n h => rw [show BitVec.ofNat 16 (n + 1) = c from BitVec.eq_of_toNat_eq (by have := c.isLt; simp; omega)]

@[simp] theorem crcBytes_nil (c : Half) : crcBytes c [] = c := rfl

@[simp] theorem crcBytes_cons (c : Half) (b : Byte) (bs : List Byte) :
    crcBytes c (b :: bs) = crcBytes (crcByte c b) bs := by
  simp [crcBytes]

theorem crcBytes_eq_foldl (c : Half) (bs : List Byte) : crcBytes c bs = bs.foldl crcByte c := by
  induction bs generalizing c with
  | nil => rfl
  | cons b bs ih => simp [ih]

theorem crcBytes_append (c : Half) (a b : List Byte) : crcBytes c (a ++ b) = crcBytes (crcBytes c a) b := by
  simp [crcBytes_eq_foldl]

end Sys2Proof.Machine
end

