-- ==== Sys2Proof/Laws/Decode.lean ====
section
/-! SUPPORT. The frame layer: what one pass of the decoder's loop accepts and what makes it wait, what a whole scan gives,
and the command map. -/

namespace Sys2Proof

open Sys2Proof.Machine

/-! The encoder. -/

theorem frameBytes_eq (seq : Half) (cmd : Byte) (p : List Byte) :
    frameBytes seq cmd p =
      Frame.stx :: BitVec.ofNat 8 (3 + p.length) :: lo8 seq :: hi8 seq :: cmd ::
        (p ++ [lo8 (checksum (frameBody seq cmd p)), hi8 (checksum (frameBody seq cmd p)), Frame.etx]) := by
  simp [frameBytes, frameBody, bytes16]

@[simp] theorem frameBody_length (seq : Half) (cmd : Byte) (p : List Byte) :
    (frameBody seq cmd p).length = p.length + 4 := by simp [frameBody]; omega

@[simp] theorem frameBytes_length (seq : Half) (cmd : Byte) (p : List Byte) :
    (frameBytes seq cmd p).length = p.length + 8 := by simp [frameBytes]

theorem lengthByte_toNat {n : Nat} (h : n ≤ Config.maxPayload) : (BitVec.ofNat 8 (3 + n)).toNat = n + 3 := by
  simp [Config.maxPayload] at *; omega

theorem encodeFrame_eq {p : List Byte} (h : p.length ≤ Config.maxPayload) (seq : Half) (cmd : Byte) :
    encodeFrame seq cmd p = some (frameBytes seq cmd p) := by simp only [encodeFrame, if_pos h]

theorem encodeFrame_tooLong {p : List Byte} (h : Config.maxPayload < p.length) (seq : Half) (cmd : Byte) :
    encodeFrame seq cmd p = none := by simp only [encodeFrame, if_neg (Nat.not_le.mpr h)]

/-! One pass of the loop. -/

/-- A valid frame at the front is accepted, whatever follows it (42_stream_decoder.md R152, 41_frame_encoder.md R138). -/
theorem pass_frameBytes (seq : Half) (cmd : Byte) (p rest : List Byte) (h : p.length ≤ Config.maxPayload) :
    pass (frameBytes seq cmd p ++ rest) =
      .accept ⟨seq, cmd, p⟩ (p.length + 8) (checksum (frameBody seq cmd p)) := by
  have hl := lengthByte_toNat h
  generalize hc : checksum (frameBody seq cmd p) = c
  have e : frameBytes seq cmd p ++ rest =
      Frame.stx :: (BitVec.ofNat 8 (3 + p.length) :: lo8 seq :: hi8 seq :: cmd ::
        (p ++ (lo8 c :: hi8 c :: Frame.etx :: rest))) := by
    rw [frameBytes_eq, hc]; simp
  have hs : slice (frameBytes seq cmd p ++ rest) 1 (p.length + 4) = frameBody seq cmd p := by
    rw [frameBytes, List.cons_append, List.append_assoc]
    simp [slice]
  have hp : slice (frameBytes seq cmd p ++ rest) 5 (p.length + 4) = p := by
    rw [e]; simp [slice]
  rw [e] at hs hp ⊢
  have b1 : ∀ i, byteAt (p ++ (lo8 c :: hi8 c :: Frame.etx :: rest)) (p.length + i) =
      byteAt (lo8 c :: hi8 c :: Frame.etx :: rest) i := fun i => byteAt_append_right _ _ _
  have b5 : byteAt (p ++ (lo8 c :: hi8 c :: Frame.etx :: rest)) p.length = lo8 c := by
    simpa using b1 0
  have b6 := b1 1
  have b7 := b1 2
  simp only [pass, byteAt_cons_succ, byteAt_cons_zero, hl]
  simp [hs, hp, hc, b5, b6, b7]
  rw [if_neg (by omega), if_neg (by omega)]

/-- What is accepted is a valid frame at the front, and nothing else. -/
theorem pass_accept {m : List Byte} {p : Packet} {size : Nat} {c : Half} (h : pass m = .accept p size c) :
    p.payload.length ≤ Config.maxPayload ∧ size = p.payload.length + 8 ∧
      c = checksum (frameBody p.sequence p.command p.payload) ∧
      m = frameBytes p.sequence p.command p.payload ++ m.drop size := by
  match m, h with
  | b0 :: t, h =>
    simp only [pass] at h
    split at h
    · cases h
    rename_i hstx
    split at h
    · cases h
    rename_i h8
    split at h
    · cases h
    rename_i h3
    split at h
    · cases h
    rename_i hn
    split at h
    · cases h
    rename_i hetx
    split at h
    · cases h
    rename_i hcrc
    obtain ⟨rfl, rfl, rfl⟩ : _ ∧ _ ∧ _ := by simpa using h
    rcases t with _ | ⟨b1, _ | ⟨b2, _ | ⟨b3, _ | ⟨b4, u⟩⟩⟩⟩
    case nil => exact absurd (by simp) h8
    case cons.nil => exact absurd (by simp) h8
    case cons.cons.nil => exact absurd (by simp) h8
    case cons.cons.cons.nil => exact absurd (by simp) h8
    case cons.cons.cons.cons =>
      simp only [byteAt_cons_succ, byteAt_cons_zero, ne_eq, Decidable.not_not] at *
      have hlt := b1.isLt
      generalize hL : b1.toNat = len at *
      obtain ⟨n, rfl⟩ : ∃ n, len = n + 3 := ⟨len - 3, by omega⟩
      simp only [byteAt_cons_succ, List.length_cons] at *
      have hpay : slice (b0 :: b1 :: b2 :: b3 :: b4 :: u) 5 (n + 3 + 1) = u.take n := by simp [slice]
      have hlen : (u.take n).length = n := by simp; omega
      have hbody : slice (b0 :: b1 :: b2 :: b3 :: b4 :: u) 1 (n + 3 + 1) =
          frameBody (le16 b2 b3) b4 (u.take n) := by
        have hb : BitVec.ofNat 8 (3 + n) = b1 :=
          BitVec.eq_of_toNat_eq (by simp; omega)
        simp only [frameBody, hlen, hb, bytes16_le16]
        simp [slice]
      have hu : u = u.take n ++ (byteAt u n :: byteAt u (n + 1) :: byteAt u (n + 2) :: u.drop (n + 3)) := by
        have e1 : ∀ k, k < u.length → u.drop k = byteAt u k :: u.drop (k + 1) := fun k hk => by
          rw [List.drop_eq_getElem_cons hk]; simp [byteAt, hk]
        rw [← e1 (n + 2) (by omega), ← e1 (n + 1) (by omega), ← e1 n (by omega), List.take_append_drop]
      rw [hpay, hbody, hlen]
      refine ⟨by simp [Config.maxPayload]; omega, rfl, rfl, ?_⟩
      have hb : BitVec.ofNat 8 (3 + n) = b1 := BitVec.eq_of_toNat_eq (by simp; omega)
      rw [hbody] at hcrc
      rw [frameBytes_eq, hlen, hb, hcrc, ← hstx, ← hetx]
      simp only [lo8_le16, hi8_le16, List.cons_append, List.append_assoc, List.nil_append]
      conv_lhs => rw [hu]
      simp

/-- What makes the decoder wait (42_stream_decoder.md R162). -/
theorem pass_wait {m : List Byte} {why : FrameReject} (h : pass m = .wait why) : Waiting m := by
  match m, h with
  | [], _ => exact .inl rfl
  | b :: t, h =>
    simp only [pass] at h
    split at h
    · cases h
    rename_i hstx
    simp only [ne_eq, Decidable.not_not] at hstx
    split at h
    · next h8 => exact .inr ⟨by simp [hstx], .inl h8⟩
    split at h
    · cases h
    rename_i h3
    split at h
    · next hn => exact .inr ⟨by simp [hstx], .inr ⟨by omega, hn⟩⟩
    split at h
    · cases h
    split at h <;> cases h

/-- A buffer of that form makes it wait. -/
theorem pass_of_waiting {m : List Byte} (h : Waiting m) : ∃ why, pass m = .wait why := by
  match m, h with
  | [], _ => exact ⟨_, rfl⟩
  | b :: t, .inr ⟨hb, h⟩ =>
    have hb : b = Frame.stx := by simpa using hb
    simp only [pass, hb]
    by_cases h8 : (b :: t).length < 8
    · simp only [hb] at h8
      exact ⟨.tooFewBytes, by rw [if_neg (by simp), if_pos h8]⟩
    · obtain ⟨h3, hn⟩ := h.resolve_left h8
      simp only [hb] at h8 h3 hn
      exact ⟨.frameIncomplete, by rw [if_neg (by simp), if_neg h8, if_neg (by omega), if_pos hn]⟩

/-- A waiting buffer holds at most 259 bytes (42_stream_decoder.md R162). -/
theorem waiting_length_le {m : List Byte} (h : Waiting m) : m.length ≤ 259 := by
  rcases h with rfl | ⟨-, h | ⟨-, h⟩⟩
  · simp
  · omega
  · have := (byteAt m 1).isLt; omega

/-! The whole scan. -/

@[simp] theorem scan_nil (c : Half) : scan c [] = ⟨none, [], c⟩ := rfl

theorem scan_wait {m : List Byte} {why : FrameReject} (h : pass m = .wait why) (c : Half) :
    scan c m = ⟨none, m, c⟩ := by
  cases m with
  | nil => rfl
  | cons b t => simp only [scan, h]

theorem scan_of_waiting {m : List Byte} (h : Waiting m) (c : Half) : scan c m = ⟨none, m, c⟩ :=
  let ⟨_, hp⟩ := pass_of_waiting h
  scan_wait hp c

theorem scan_drop {b : Byte} {t : List Byte} {why : FrameReject} {k : Option Half}
    (h : pass (b :: t) = .drop why k) (c : Half) : scan c (b :: t) = scan (k.getD c) t := by
  simp only [scan, h]

theorem scan_accept {m : List Byte} {p : Packet} {size : Nat} {k : Half} (h : pass m = .accept p size k) (c : Half) :
    scan c m = ⟨some p, m.drop size, k⟩ := by
  cases m with
  | nil => cases h
  | cons b t => simp only [scan, h]

/-- A valid frame at the front is the result, and exactly its bytes are consumed (42_stream_decoder.md R159). -/
theorem scan_frameBytes (k seq : Half) (cmd : Byte) (p rest : List Byte) (h : p.length ≤ Config.maxPayload) :
    scan k (frameBytes seq cmd p ++ rest) = ⟨some ⟨seq, cmd, p⟩, rest, checksum (frameBody seq cmd p)⟩ := by
  rw [scan_accept (pass_frameBytes seq cmd p rest h)]
  have : p.length + 8 = (frameBytes seq cmd p).length := by simp
  rw [this, List.drop_left]

/-- What a scan can give: nothing, with a waiting buffer left, or the first frame it accepts with the bytes behind it. -/
theorem scan_cases (k : Half) (m : List Byte) :
    ((scan k m).packet = none ∧ Waiting (scan k m).rest ∧ ∃ pre, m = pre ++ (scan k m).rest) ∨
      ∃ p pre, (scan k m).packet = some p ∧ p.payload.length ≤ Config.maxPayload ∧
        m = pre ++ (frameBytes p.sequence p.command p.payload ++ (scan k m).rest) ∧
        (scan k m).crc = checksum (frameBody p.sequence p.command p.payload) := by
  induction m generalizing k with
  | nil => exact .inl ⟨rfl, .inl rfl, [], rfl⟩
  | cons b t ih =>
    cases h : pass (b :: t) with
    | wait why => rw [scan_wait h]; exact .inl ⟨rfl, pass_wait h, [], rfl⟩
    | drop why c =>
      rw [scan_drop h]
      rcases ih (c.getD k) with ⟨h1, h2, pre, h3⟩ | ⟨p, pre, h1, h2, h3, h4⟩
      · exact .inl ⟨h1, h2, b :: pre, by rw [List.cons_append, ← h3]⟩
      · exact .inr ⟨p, b :: pre, h1, h2, by rw [List.cons_append, ← h3], h4⟩
    | accept p size c =>
      obtain ⟨h1, h2, h3, h4⟩ := pass_accept h
      rw [scan_accept h]
      exact .inr ⟨p, [], rfl, h1, h4, h3⟩

theorem scan_rest_length_le (k : Half) (m : List Byte) : (scan k m).rest.length ≤ m.length := by
  rcases scan_cases k m with ⟨-, -, pre, h⟩ | ⟨p, pre, -, -, h, -⟩
  · have := congrArg List.length h; simp at this; omega
  · have := congrArg List.length h; simp at this; omega

/-! The command map. -/

theorem toPacket_ofPacket {r : Role} {p : Packet} {i : Instr} (h : Instr.ofPacket r p = some i) :
    i.toPacket = p ∧ i.arrivesAt r = true := by
  obtain ⟨seq, cmd, payload⟩ := p
  unfold Instr.ofPacket at h
  simp only at h
  split at h
  · subst cmd; cases h; exact ⟨rfl, rfl⟩
  split at h
  · subst cmd; cases h; exact ⟨rfl, rfl⟩
  split at h
  · subst cmd; cases h; exact ⟨rfl, rfl⟩
  split at h
  · subst cmd; cases h; cases r <;> exact ⟨rfl, rfl⟩
  split at h
  · subst cmd; cases h; cases r <;> exact ⟨rfl, rfl⟩
  split at h
  · subst cmd; cases h; cases r <;> exact ⟨rfl, rfl⟩
  split at h
  · subst cmd; cases h; cases r <;> exact ⟨rfl, rfl⟩
  split at h
  · subst cmd; cases h; exact ⟨rfl, rfl⟩
  split at h
  · subst cmd; cases h; exact ⟨rfl, rfl⟩
  split at h
  · subst cmd; cases h; exact ⟨rfl, rfl⟩
  · cases h

theorem ofPacket_toPacket (r : Role) (i : Instr) (h : i.arrivesAt r = true) :
    Instr.ofPacket r i.toPacket = some i := by
  cases i <;> cases r <;> first | rfl | cases h

/-- A device has a row for a code exactly when a host has (30_encoding.md R95). -/
theorem ofPacket_isNone (r r' : Role) (p : Packet) (h : Instr.ofPacket r p = none) : Instr.ofPacket r' p = none := by
  unfold Instr.ofPacket at *
  split at h
  · cases h
  split at h
  · cases h
  split at h
  · cases h
  split at h
  · cases h
  split at h
  · cases h
  split at h
  · cases h
  split at h
  · cases h
  split at h
  · cases h
  split at h
  · cases h
  split at h
  · cases h
  · simp [*]

end Sys2Proof
end

