-- ==== Sys2Proof/Laws/Memory.lean ====
section
/-! SUPPORT. The receive buffer: every operation keeps its form, and what a read gives after each. -/

namespace Sys2Proof.Machine

open Sys2Proof

theorem Memory.wf_iff (cap : Nat) (m : List Byte) : Memory.wf cap m = true ↔ m.length ≤ cap := by
  simp [Memory.wf]

theorem Memory.append_wf {cap : Nat} {m m' : List Byte} {b : Byte} (h : Memory.append cap m b = some m') :
    Memory.wf cap m' = true := by
  unfold Memory.append at h
  split at h
  · cases h; simp [Memory.wf]; omega
  · cases h

theorem Memory.append_eq {cap : Nat} {m m' : List Byte} {b : Byte} (h : Memory.append cap m b = some m') :
    m.length < cap ∧ m' = m ++ [b] := by
  unfold Memory.append at h
  split at h
  · next hlt => cases h; exact ⟨hlt, rfl⟩
  · cases h

theorem Memory.dropFront_wf {cap : Nat} {m m' : List Byte} {n : Nat} (hm : Memory.wf cap m = true)
    (h : Memory.dropFront m n = some m') : Memory.wf cap m' = true := by
  unfold Memory.dropFront at h
  rw [Memory.wf_iff] at hm ⊢
  split at h
  · cases h; simp; omega
  · cases h

/-- `TRY_DECODE` keeps the form of the buffer. -/
theorem Memory.scan_wf {cap : Nat} {m : List Byte} (hm : Memory.wf cap m = true) (k : Half) :
    Memory.wf cap (scan k m).rest = true := by
  rw [Memory.wf_iff] at hm ⊢
  exact (scan_rest_length_le k m).trans hm

/-- An append leaves every read of the bytes before it as it was (20_memory.md R52). -/
theorem Memory.read_append {m : List Byte} (b : Byte) {i n : Nat} (h : i + n ≤ m.length) :
    Memory.read (m ++ [b]) i n = Memory.read m i n := by
  have h' : i + n ≤ (m ++ [b]).length := by simp; omega
  rw [Memory.read, if_pos h', Memory.read, if_pos h, List.drop_append_of_le_length (by omega),
    List.take_append_of_le_length (by simp; omega)]

/-- `DropFront(n)` renumbers every remaining byte down by `n` (20_memory.md R51). -/
theorem Memory.read_dropFront {m m' : List Byte} {k : Nat} (h : Memory.dropFront m k = some m') (i n : Nat) :
    Memory.read m' i n = Memory.read m (k + i) n := by
  unfold Memory.dropFront at h
  split at h
  · cases h
    simp only [Memory.read, List.length_drop, List.drop_drop]
    by_cases hn : k + i + n ≤ m.length
    · rw [if_pos (by omega), if_pos hn]
    · rw [if_neg (by omega), if_neg hn]
  · cases h

end Sys2Proof.Machine
end

