-- ==== Sys2Proof/Laws/State.lean ====
section
/-! SUPPORT. One lemma for each field of State and each named update of it, true by rfl, so that no later proof unfolds a
record update. -/

namespace Sys2Proof.Machine

open Sys2Proof

@[simp] theorem State.setXerr_straps (v : Bool) (s : State) : (s.setXerr v).straps = s.straps := rfl
@[simp] theorem State.setXerr_rxbuf (v : Bool) (s : State) : (s.setXerr v).rxbuf = s.rxbuf := rfl
@[simp] theorem State.setXerr_crcReg (v : Bool) (s : State) : (s.setXerr v).crcReg = s.crcReg := rfl
@[simp] theorem State.setXerr_pktValid (v : Bool) (s : State) : (s.setXerr v).pktValid = s.pktValid := rfl
@[simp] theorem State.setXerr_pktSeq (v : Bool) (s : State) : (s.setXerr v).pktSeq = s.pktSeq := rfl
@[simp] theorem State.setXerr_pktCmd (v : Bool) (s : State) : (s.setXerr v).pktCmd = s.pktCmd := rfl
@[simp] theorem State.setXerr_pktPlen (v : Bool) (s : State) : (s.setXerr v).pktPlen = s.pktPlen := rfl
@[simp] theorem State.setXerr_pktPayload (v : Bool) (s : State) : (s.setXerr v).pktPayload = s.pktPayload := rfl
@[simp] theorem State.setXerr_xerr (v : Bool) (s : State) : (s.setXerr v).xerr = v := rfl
@[simp] theorem State.setXerr_hsLatch (v : Bool) (s : State) : (s.setXerr v).hsLatch = s.hsLatch := rfl
@[simp] theorem State.setXerr_peerVersion (v : Bool) (s : State) : (s.setXerr v).peerVersion = s.peerVersion := rfl
@[simp] theorem State.setXerr_peerCaps (v : Bool) (s : State) : (s.setXerr v).peerCaps = s.peerCaps := rfl
@[simp] theorem State.setXerr_hsState (v : Bool) (s : State) : (s.setXerr v).hsState = s.hsState := rfl
@[simp] theorem State.setXerr_attempt (v : Bool) (s : State) : (s.setXerr v).attempt = s.attempt := rfl
@[simp] theorem State.setXerr_hsReason (v : Bool) (s : State) : (s.setXerr v).hsReason = s.hsReason := rfl
@[simp] theorem State.setXerr_hsErrcode (v : Bool) (s : State) : (s.setXerr v).hsErrcode = s.hsErrcode := rfl
@[simp] theorem State.setXerr_peerVer (v : Bool) (s : State) : (s.setXerr v).peerVer = s.peerVer := rfl
@[simp] theorem State.setXerr_peerStatus (v : Bool) (s : State) : (s.setXerr v).peerStatus = s.peerStatus := rfl
@[simp] theorem State.setXerr_peerId (v : Bool) (s : State) : (s.setXerr v).peerId = s.peerId := rfl
@[simp] theorem State.setXerr_session (v : Bool) (s : State) : (s.setXerr v).session = s.session := rfl
@[simp] theorem State.setXerr_activity (v : Bool) (s : State) : (s.setXerr v).activity = s.activity := rfl
@[simp] theorem State.setXerr_ops (v : Bool) (s : State) : (s.setXerr v).ops = s.ops := rfl
@[simp] theorem State.setXerr_result (v : Bool) (s : State) : (s.setXerr v).result = s.result := rfl
@[simp] theorem State.setXerr_wireIn (v : Bool) (s : State) : (s.setXerr v).wireIn = s.wireIn := rfl
@[simp] theorem State.setXerr_timeouts (v : Bool) (s : State) : (s.setXerr v).timeouts = s.timeouts := rfl
@[simp] theorem State.setXerr_wireOut (v : Bool) (s : State) : (s.setXerr v).wireOut = s.wireOut := rfl
@[simp] theorem State.setXerr_draws (v : Bool) (s : State) : (s.setXerr v).draws = s.draws := rfl
@[simp] theorem State.setXerr_drawCount (v : Bool) (s : State) : (s.setXerr v).drawCount = s.drawCount := rfl
@[simp] theorem State.setXerr_events (v : Bool) (s : State) : (s.setXerr v).events = s.events := rfl

@[simp] theorem State.holdPacket_straps (p : Packet) (s : State) : (s.holdPacket p).straps = s.straps := rfl
@[simp] theorem State.holdPacket_rxbuf (p : Packet) (s : State) : (s.holdPacket p).rxbuf = s.rxbuf := rfl
@[simp] theorem State.holdPacket_crcReg (p : Packet) (s : State) : (s.holdPacket p).crcReg = s.crcReg := rfl
@[simp] theorem State.holdPacket_pktValid (p : Packet) (s : State) : (s.holdPacket p).pktValid = true := rfl
@[simp] theorem State.holdPacket_pktSeq (p : Packet) (s : State) : (s.holdPacket p).pktSeq = p.sequence := rfl
@[simp] theorem State.holdPacket_pktCmd (p : Packet) (s : State) : (s.holdPacket p).pktCmd = p.command := rfl
@[simp] theorem State.holdPacket_pktPlen (p : Packet) (s : State) : (s.holdPacket p).pktPlen = BitVec.ofNat 8 p.payload.length := rfl
@[simp] theorem State.holdPacket_pktPayload (p : Packet) (s : State) : (s.holdPacket p).pktPayload = p.payload ++ s.pktPayload.drop p.payload.length := rfl
@[simp] theorem State.holdPacket_xerr (p : Packet) (s : State) : (s.holdPacket p).xerr = s.xerr := rfl
@[simp] theorem State.holdPacket_hsLatch (p : Packet) (s : State) : (s.holdPacket p).hsLatch = s.hsLatch := rfl
@[simp] theorem State.holdPacket_peerVersion (p : Packet) (s : State) : (s.holdPacket p).peerVersion = s.peerVersion := rfl
@[simp] theorem State.holdPacket_peerCaps (p : Packet) (s : State) : (s.holdPacket p).peerCaps = s.peerCaps := rfl
@[simp] theorem State.holdPacket_hsState (p : Packet) (s : State) : (s.holdPacket p).hsState = s.hsState := rfl
@[simp] theorem State.holdPacket_attempt (p : Packet) (s : State) : (s.holdPacket p).attempt = s.attempt := rfl
@[simp] theorem State.holdPacket_hsReason (p : Packet) (s : State) : (s.holdPacket p).hsReason = s.hsReason := rfl
@[simp] theorem State.holdPacket_hsErrcode (p : Packet) (s : State) : (s.holdPacket p).hsErrcode = s.hsErrcode := rfl
@[simp] theorem State.holdPacket_peerVer (p : Packet) (s : State) : (s.holdPacket p).peerVer = s.peerVer := rfl
@[simp] theorem State.holdPacket_peerStatus (p : Packet) (s : State) : (s.holdPacket p).peerStatus = s.peerStatus := rfl
@[simp] theorem State.holdPacket_peerId (p : Packet) (s : State) : (s.holdPacket p).peerId = s.peerId := rfl
@[simp] theorem State.holdPacket_session (p : Packet) (s : State) : (s.holdPacket p).session = s.session := rfl
@[simp] theorem State.holdPacket_activity (p : Packet) (s : State) : (s.holdPacket p).activity = s.activity := rfl
@[simp] theorem State.holdPacket_ops (p : Packet) (s : State) : (s.holdPacket p).ops = s.ops := rfl
@[simp] theorem State.holdPacket_result (p : Packet) (s : State) : (s.holdPacket p).result = s.result := rfl
@[simp] theorem State.holdPacket_wireIn (p : Packet) (s : State) : (s.holdPacket p).wireIn = s.wireIn := rfl
@[simp] theorem State.holdPacket_timeouts (p : Packet) (s : State) : (s.holdPacket p).timeouts = s.timeouts := rfl
@[simp] theorem State.holdPacket_wireOut (p : Packet) (s : State) : (s.holdPacket p).wireOut = s.wireOut := rfl
@[simp] theorem State.holdPacket_draws (p : Packet) (s : State) : (s.holdPacket p).draws = s.draws := rfl
@[simp] theorem State.holdPacket_drawCount (p : Packet) (s : State) : (s.holdPacket p).drawCount = s.drawCount := rfl
@[simp] theorem State.holdPacket_events (p : Packet) (s : State) : (s.holdPacket p).events = s.events := rfl

@[simp] theorem State.holdNone_straps (s : State) : s.holdNone.straps = s.straps := rfl
@[simp] theorem State.holdNone_rxbuf (s : State) : s.holdNone.rxbuf = s.rxbuf := rfl
@[simp] theorem State.holdNone_crcReg (s : State) : s.holdNone.crcReg = s.crcReg := rfl
@[simp] theorem State.holdNone_pktValid (s : State) : s.holdNone.pktValid = false := rfl
@[simp] theorem State.holdNone_pktSeq (s : State) : s.holdNone.pktSeq = s.pktSeq := rfl
@[simp] theorem State.holdNone_pktCmd (s : State) : s.holdNone.pktCmd = s.pktCmd := rfl
@[simp] theorem State.holdNone_pktPlen (s : State) : s.holdNone.pktPlen = s.pktPlen := rfl
@[simp] theorem State.holdNone_pktPayload (s : State) : s.holdNone.pktPayload = s.pktPayload := rfl
@[simp] theorem State.holdNone_xerr (s : State) : s.holdNone.xerr = s.xerr := rfl
@[simp] theorem State.holdNone_hsLatch (s : State) : s.holdNone.hsLatch = s.hsLatch := rfl
@[simp] theorem State.holdNone_peerVersion (s : State) : s.holdNone.peerVersion = s.peerVersion := rfl
@[simp] theorem State.holdNone_peerCaps (s : State) : s.holdNone.peerCaps = s.peerCaps := rfl
@[simp] theorem State.holdNone_hsState (s : State) : s.holdNone.hsState = s.hsState := rfl
@[simp] theorem State.holdNone_attempt (s : State) : s.holdNone.attempt = s.attempt := rfl
@[simp] theorem State.holdNone_hsReason (s : State) : s.holdNone.hsReason = s.hsReason := rfl
@[simp] theorem State.holdNone_hsErrcode (s : State) : s.holdNone.hsErrcode = s.hsErrcode := rfl
@[simp] theorem State.holdNone_peerVer (s : State) : s.holdNone.peerVer = s.peerVer := rfl
@[simp] theorem State.holdNone_peerStatus (s : State) : s.holdNone.peerStatus = s.peerStatus := rfl
@[simp] theorem State.holdNone_peerId (s : State) : s.holdNone.peerId = s.peerId := rfl
@[simp] theorem State.holdNone_session (s : State) : s.holdNone.session = s.session := rfl
@[simp] theorem State.holdNone_activity (s : State) : s.holdNone.activity = s.activity := rfl
@[simp] theorem State.holdNone_ops (s : State) : s.holdNone.ops = s.ops := rfl
@[simp] theorem State.holdNone_result (s : State) : s.holdNone.result = s.result := rfl
@[simp] theorem State.holdNone_wireIn (s : State) : s.holdNone.wireIn = s.wireIn := rfl
@[simp] theorem State.holdNone_timeouts (s : State) : s.holdNone.timeouts = s.timeouts := rfl
@[simp] theorem State.holdNone_wireOut (s : State) : s.holdNone.wireOut = s.wireOut := rfl
@[simp] theorem State.holdNone_draws (s : State) : s.holdNone.draws = s.draws := rfl
@[simp] theorem State.holdNone_drawCount (s : State) : s.holdNone.drawCount = s.drawCount := rfl
@[simp] theorem State.holdNone_events (s : State) : s.holdNone.events = s.events := rfl

@[simp] theorem transmit_straps (bs : List Byte) (s : State) : (transmit bs s).straps = s.straps := rfl
@[simp] theorem transmit_rxbuf (bs : List Byte) (s : State) : (transmit bs s).rxbuf = s.rxbuf := rfl
@[simp] theorem transmit_crcReg (bs : List Byte) (s : State) : (transmit bs s).crcReg = s.crcReg := rfl
@[simp] theorem transmit_pktValid (bs : List Byte) (s : State) : (transmit bs s).pktValid = s.pktValid := rfl
@[simp] theorem transmit_pktSeq (bs : List Byte) (s : State) : (transmit bs s).pktSeq = s.pktSeq := rfl
@[simp] theorem transmit_pktCmd (bs : List Byte) (s : State) : (transmit bs s).pktCmd = s.pktCmd := rfl
@[simp] theorem transmit_pktPlen (bs : List Byte) (s : State) : (transmit bs s).pktPlen = s.pktPlen := rfl
@[simp] theorem transmit_pktPayload (bs : List Byte) (s : State) : (transmit bs s).pktPayload = s.pktPayload := rfl
@[simp] theorem transmit_xerr (bs : List Byte) (s : State) : (transmit bs s).xerr = s.xerr := rfl
@[simp] theorem transmit_hsLatch (bs : List Byte) (s : State) : (transmit bs s).hsLatch = s.hsLatch := rfl
@[simp] theorem transmit_peerVersion (bs : List Byte) (s : State) : (transmit bs s).peerVersion = s.peerVersion := rfl
@[simp] theorem transmit_peerCaps (bs : List Byte) (s : State) : (transmit bs s).peerCaps = s.peerCaps := rfl
@[simp] theorem transmit_hsState (bs : List Byte) (s : State) : (transmit bs s).hsState = s.hsState := rfl
@[simp] theorem transmit_attempt (bs : List Byte) (s : State) : (transmit bs s).attempt = s.attempt := rfl
@[simp] theorem transmit_hsReason (bs : List Byte) (s : State) : (transmit bs s).hsReason = s.hsReason := rfl
@[simp] theorem transmit_hsErrcode (bs : List Byte) (s : State) : (transmit bs s).hsErrcode = s.hsErrcode := rfl
@[simp] theorem transmit_peerVer (bs : List Byte) (s : State) : (transmit bs s).peerVer = s.peerVer := rfl
@[simp] theorem transmit_peerStatus (bs : List Byte) (s : State) : (transmit bs s).peerStatus = s.peerStatus := rfl
@[simp] theorem transmit_peerId (bs : List Byte) (s : State) : (transmit bs s).peerId = s.peerId := rfl
@[simp] theorem transmit_session (bs : List Byte) (s : State) : (transmit bs s).session = s.session := rfl
@[simp] theorem transmit_activity (bs : List Byte) (s : State) : (transmit bs s).activity = s.activity := rfl
@[simp] theorem transmit_ops (bs : List Byte) (s : State) : (transmit bs s).ops = s.ops := rfl
@[simp] theorem transmit_result (bs : List Byte) (s : State) : (transmit bs s).result = s.result := rfl
@[simp] theorem transmit_wireIn (bs : List Byte) (s : State) : (transmit bs s).wireIn = s.wireIn := rfl
@[simp] theorem transmit_timeouts (bs : List Byte) (s : State) : (transmit bs s).timeouts = s.timeouts := rfl
@[simp] theorem transmit_wireOut (bs : List Byte) (s : State) : (transmit bs s).wireOut = s.wireOut ++ bs := rfl
@[simp] theorem transmit_draws (bs : List Byte) (s : State) : (transmit bs s).draws = s.draws := rfl
@[simp] theorem transmit_drawCount (bs : List Byte) (s : State) : (transmit bs s).drawCount = s.drawCount := rfl
@[simp] theorem transmit_events (bs : List Byte) (s : State) : (transmit bs s).events = s.events ++ [.sent bs.length] := rfl

@[simp] theorem call_straps (e : Event) (s : State) : (call e s).straps = s.straps := rfl
@[simp] theorem call_rxbuf (e : Event) (s : State) : (call e s).rxbuf = s.rxbuf := rfl
@[simp] theorem call_crcReg (e : Event) (s : State) : (call e s).crcReg = s.crcReg := rfl
@[simp] theorem call_pktValid (e : Event) (s : State) : (call e s).pktValid = s.pktValid := rfl
@[simp] theorem call_pktSeq (e : Event) (s : State) : (call e s).pktSeq = s.pktSeq := rfl
@[simp] theorem call_pktCmd (e : Event) (s : State) : (call e s).pktCmd = s.pktCmd := rfl
@[simp] theorem call_pktPlen (e : Event) (s : State) : (call e s).pktPlen = s.pktPlen := rfl
@[simp] theorem call_pktPayload (e : Event) (s : State) : (call e s).pktPayload = s.pktPayload := rfl
@[simp] theorem call_xerr (e : Event) (s : State) : (call e s).xerr = s.xerr := rfl
@[simp] theorem call_hsLatch (e : Event) (s : State) : (call e s).hsLatch = s.hsLatch := rfl
@[simp] theorem call_peerVersion (e : Event) (s : State) : (call e s).peerVersion = s.peerVersion := rfl
@[simp] theorem call_peerCaps (e : Event) (s : State) : (call e s).peerCaps = s.peerCaps := rfl
@[simp] theorem call_hsState (e : Event) (s : State) : (call e s).hsState = s.hsState := rfl
@[simp] theorem call_attempt (e : Event) (s : State) : (call e s).attempt = s.attempt := rfl
@[simp] theorem call_hsReason (e : Event) (s : State) : (call e s).hsReason = s.hsReason := rfl
@[simp] theorem call_hsErrcode (e : Event) (s : State) : (call e s).hsErrcode = s.hsErrcode := rfl
@[simp] theorem call_peerVer (e : Event) (s : State) : (call e s).peerVer = s.peerVer := rfl
@[simp] theorem call_peerStatus (e : Event) (s : State) : (call e s).peerStatus = s.peerStatus := rfl
@[simp] theorem call_peerId (e : Event) (s : State) : (call e s).peerId = s.peerId := rfl
@[simp] theorem call_session (e : Event) (s : State) : (call e s).session = s.session := rfl
@[simp] theorem call_activity (e : Event) (s : State) : (call e s).activity = s.activity := rfl
@[simp] theorem call_ops (e : Event) (s : State) : (call e s).ops = s.ops := rfl
@[simp] theorem call_result (e : Event) (s : State) : (call e s).result = s.result := rfl
@[simp] theorem call_wireIn (e : Event) (s : State) : (call e s).wireIn = s.wireIn := rfl
@[simp] theorem call_timeouts (e : Event) (s : State) : (call e s).timeouts = s.timeouts := rfl
@[simp] theorem call_wireOut (e : Event) (s : State) : (call e s).wireOut = s.wireOut := rfl
@[simp] theorem call_draws (e : Event) (s : State) : (call e s).draws = s.draws := rfl
@[simp] theorem call_drawCount (e : Event) (s : State) : (call e s).drawCount = s.drawCount := rfl
@[simp] theorem call_events (e : Event) (s : State) : (call e s).events = s.events ++ [e] := rfl

@[simp] theorem finish_straps (r : Result) (s : State) : (finish r s).straps = s.straps := rfl
@[simp] theorem finish_rxbuf (r : Result) (s : State) : (finish r s).rxbuf = s.rxbuf := rfl
@[simp] theorem finish_crcReg (r : Result) (s : State) : (finish r s).crcReg = s.crcReg := rfl
@[simp] theorem finish_pktValid (r : Result) (s : State) : (finish r s).pktValid = s.pktValid := rfl
@[simp] theorem finish_pktSeq (r : Result) (s : State) : (finish r s).pktSeq = s.pktSeq := rfl
@[simp] theorem finish_pktCmd (r : Result) (s : State) : (finish r s).pktCmd = s.pktCmd := rfl
@[simp] theorem finish_pktPlen (r : Result) (s : State) : (finish r s).pktPlen = s.pktPlen := rfl
@[simp] theorem finish_pktPayload (r : Result) (s : State) : (finish r s).pktPayload = s.pktPayload := rfl
@[simp] theorem finish_xerr (r : Result) (s : State) : (finish r s).xerr = s.xerr := rfl
@[simp] theorem finish_hsLatch (r : Result) (s : State) : (finish r s).hsLatch = s.hsLatch := rfl
@[simp] theorem finish_peerVersion (r : Result) (s : State) : (finish r s).peerVersion = s.peerVersion := rfl
@[simp] theorem finish_peerCaps (r : Result) (s : State) : (finish r s).peerCaps = s.peerCaps := rfl
@[simp] theorem finish_hsState (r : Result) (s : State) : (finish r s).hsState = s.hsState := rfl
@[simp] theorem finish_attempt (r : Result) (s : State) : (finish r s).attempt = s.attempt := rfl
@[simp] theorem finish_hsReason (r : Result) (s : State) : (finish r s).hsReason = s.hsReason := rfl
@[simp] theorem finish_hsErrcode (r : Result) (s : State) : (finish r s).hsErrcode = s.hsErrcode := rfl
@[simp] theorem finish_peerVer (r : Result) (s : State) : (finish r s).peerVer = s.peerVer := rfl
@[simp] theorem finish_peerStatus (r : Result) (s : State) : (finish r s).peerStatus = s.peerStatus := rfl
@[simp] theorem finish_peerId (r : Result) (s : State) : (finish r s).peerId = s.peerId := rfl
@[simp] theorem finish_session (r : Result) (s : State) : (finish r s).session = s.session := rfl
@[simp] theorem finish_activity (r : Result) (s : State) : (finish r s).activity = .idle := rfl
@[simp] theorem finish_ops (r : Result) (s : State) : (finish r s).ops = s.ops := rfl
@[simp] theorem finish_result (r : Result) (s : State) : (finish r s).result = r := rfl
@[simp] theorem finish_wireIn (r : Result) (s : State) : (finish r s).wireIn = s.wireIn := rfl
@[simp] theorem finish_timeouts (r : Result) (s : State) : (finish r s).timeouts = s.timeouts := rfl
@[simp] theorem finish_wireOut (r : Result) (s : State) : (finish r s).wireOut = s.wireOut := rfl
@[simp] theorem finish_draws (r : Result) (s : State) : (finish r s).draws = s.draws := rfl
@[simp] theorem finish_drawCount (r : Result) (s : State) : (finish r s).drawCount = s.drawCount := rfl
@[simp] theorem finish_events (r : Result) (s : State) : (finish r s).events = s.events := rfl

@[simp] theorem transportError_straps (s : State) : (transportError s).straps = s.straps := rfl
@[simp] theorem transportError_rxbuf (s : State) : (transportError s).rxbuf = s.rxbuf := rfl
@[simp] theorem transportError_crcReg (s : State) : (transportError s).crcReg = s.crcReg := rfl
@[simp] theorem transportError_pktValid (s : State) : (transportError s).pktValid = s.pktValid := rfl
@[simp] theorem transportError_pktSeq (s : State) : (transportError s).pktSeq = s.pktSeq := rfl
@[simp] theorem transportError_pktCmd (s : State) : (transportError s).pktCmd = s.pktCmd := rfl
@[simp] theorem transportError_pktPlen (s : State) : (transportError s).pktPlen = s.pktPlen := rfl
@[simp] theorem transportError_pktPayload (s : State) : (transportError s).pktPayload = s.pktPayload := rfl
@[simp] theorem transportError_xerr (s : State) : (transportError s).xerr = true := rfl
@[simp] theorem transportError_hsLatch (s : State) : (transportError s).hsLatch = s.hsLatch := rfl
@[simp] theorem transportError_peerVersion (s : State) : (transportError s).peerVersion = s.peerVersion := rfl
@[simp] theorem transportError_peerCaps (s : State) : (transportError s).peerCaps = s.peerCaps := rfl
@[simp] theorem transportError_hsState (s : State) : (transportError s).hsState = s.hsState := rfl
@[simp] theorem transportError_attempt (s : State) : (transportError s).attempt = s.attempt := rfl
@[simp] theorem transportError_hsReason (s : State) : (transportError s).hsReason = s.hsReason := rfl
@[simp] theorem transportError_hsErrcode (s : State) : (transportError s).hsErrcode = s.hsErrcode := rfl
@[simp] theorem transportError_peerVer (s : State) : (transportError s).peerVer = s.peerVer := rfl
@[simp] theorem transportError_peerStatus (s : State) : (transportError s).peerStatus = s.peerStatus := rfl
@[simp] theorem transportError_peerId (s : State) : (transportError s).peerId = s.peerId := rfl
@[simp] theorem transportError_session (s : State) : (transportError s).session = s.session := rfl
@[simp] theorem transportError_activity (s : State) : (transportError s).activity = s.activity := rfl
@[simp] theorem transportError_ops (s : State) : (transportError s).ops = s.ops := rfl
@[simp] theorem transportError_result (s : State) : (transportError s).result = s.result := rfl
@[simp] theorem transportError_wireIn (s : State) : (transportError s).wireIn = s.wireIn := rfl
@[simp] theorem transportError_timeouts (s : State) : (transportError s).timeouts = s.timeouts := rfl
@[simp] theorem transportError_wireOut (s : State) : (transportError s).wireOut = s.wireOut := rfl
@[simp] theorem transportError_draws (s : State) : (transportError s).draws = s.draws := rfl
@[simp] theorem transportError_drawCount (s : State) : (transportError s).drawCount = s.drawCount := rfl
@[simp] theorem transportError_events (s : State) : (transportError s).events = s.events := rfl

@[simp] theorem protocolError_straps (why : HsReason) (s : State) : (protocolError why s).straps = s.straps := rfl
@[simp] theorem protocolError_rxbuf (why : HsReason) (s : State) : (protocolError why s).rxbuf = s.rxbuf := rfl
@[simp] theorem protocolError_crcReg (why : HsReason) (s : State) : (protocolError why s).crcReg = s.crcReg := rfl
@[simp] theorem protocolError_pktValid (why : HsReason) (s : State) : (protocolError why s).pktValid = s.pktValid := rfl
@[simp] theorem protocolError_pktSeq (why : HsReason) (s : State) : (protocolError why s).pktSeq = s.pktSeq := rfl
@[simp] theorem protocolError_pktCmd (why : HsReason) (s : State) : (protocolError why s).pktCmd = s.pktCmd := rfl
@[simp] theorem protocolError_pktPlen (why : HsReason) (s : State) : (protocolError why s).pktPlen = s.pktPlen := rfl
@[simp] theorem protocolError_pktPayload (why : HsReason) (s : State) : (protocolError why s).pktPayload = s.pktPayload := rfl
@[simp] theorem protocolError_xerr (why : HsReason) (s : State) : (protocolError why s).xerr = s.xerr := rfl
@[simp] theorem protocolError_hsLatch (why : HsReason) (s : State) : (protocolError why s).hsLatch = s.hsLatch := rfl
@[simp] theorem protocolError_peerVersion (why : HsReason) (s : State) : (protocolError why s).peerVersion = s.peerVersion := rfl
@[simp] theorem protocolError_peerCaps (why : HsReason) (s : State) : (protocolError why s).peerCaps = s.peerCaps := rfl
@[simp] theorem protocolError_hsState (why : HsReason) (s : State) : (protocolError why s).hsState = .rejected := rfl
@[simp] theorem protocolError_attempt (why : HsReason) (s : State) : (protocolError why s).attempt = s.attempt := rfl
@[simp] theorem protocolError_hsReason (why : HsReason) (s : State) : (protocolError why s).hsReason = why := rfl
@[simp] theorem protocolError_hsErrcode (why : HsReason) (s : State) : (protocolError why s).hsErrcode = s.hsErrcode := rfl
@[simp] theorem protocolError_peerVer (why : HsReason) (s : State) : (protocolError why s).peerVer = s.peerVer := rfl
@[simp] theorem protocolError_peerStatus (why : HsReason) (s : State) : (protocolError why s).peerStatus = s.peerStatus := rfl
@[simp] theorem protocolError_peerId (why : HsReason) (s : State) : (protocolError why s).peerId = s.peerId := rfl
@[simp] theorem protocolError_session (why : HsReason) (s : State) : (protocolError why s).session = s.session := rfl
@[simp] theorem protocolError_activity (why : HsReason) (s : State) : (protocolError why s).activity = s.activity := rfl
@[simp] theorem protocolError_ops (why : HsReason) (s : State) : (protocolError why s).ops = s.ops := rfl
@[simp] theorem protocolError_result (why : HsReason) (s : State) : (protocolError why s).result = s.result := rfl
@[simp] theorem protocolError_wireIn (why : HsReason) (s : State) : (protocolError why s).wireIn = s.wireIn := rfl
@[simp] theorem protocolError_timeouts (why : HsReason) (s : State) : (protocolError why s).timeouts = s.timeouts := rfl
@[simp] theorem protocolError_wireOut (why : HsReason) (s : State) : (protocolError why s).wireOut = s.wireOut := rfl
@[simp] theorem protocolError_draws (why : HsReason) (s : State) : (protocolError why s).draws = s.draws := rfl
@[simp] theorem protocolError_drawCount (why : HsReason) (s : State) : (protocolError why s).drawCount = s.drawCount := rfl
@[simp] theorem protocolError_events (why : HsReason) (s : State) : (protocolError why s).events = s.events := rfl

@[simp] theorem timedOut_straps (s : State) : (timedOut s).straps = s.straps := rfl
@[simp] theorem timedOut_rxbuf (s : State) : (timedOut s).rxbuf = s.rxbuf := rfl
@[simp] theorem timedOut_crcReg (s : State) : (timedOut s).crcReg = s.crcReg := rfl
@[simp] theorem timedOut_pktValid (s : State) : (timedOut s).pktValid = s.pktValid := rfl
@[simp] theorem timedOut_pktSeq (s : State) : (timedOut s).pktSeq = s.pktSeq := rfl
@[simp] theorem timedOut_pktCmd (s : State) : (timedOut s).pktCmd = s.pktCmd := rfl
@[simp] theorem timedOut_pktPlen (s : State) : (timedOut s).pktPlen = s.pktPlen := rfl
@[simp] theorem timedOut_pktPayload (s : State) : (timedOut s).pktPayload = s.pktPayload := rfl
@[simp] theorem timedOut_xerr (s : State) : (timedOut s).xerr = s.xerr := rfl
@[simp] theorem timedOut_hsLatch (s : State) : (timedOut s).hsLatch = s.hsLatch := rfl
@[simp] theorem timedOut_peerVersion (s : State) : (timedOut s).peerVersion = s.peerVersion := rfl
@[simp] theorem timedOut_peerCaps (s : State) : (timedOut s).peerCaps = s.peerCaps := rfl
@[simp] theorem timedOut_hsState (s : State) : (timedOut s).hsState = .timedOut := rfl
@[simp] theorem timedOut_attempt (s : State) : (timedOut s).attempt = s.attempt := rfl
@[simp] theorem timedOut_hsReason (s : State) : (timedOut s).hsReason = .noResponse := rfl
@[simp] theorem timedOut_hsErrcode (s : State) : (timedOut s).hsErrcode = s.hsErrcode := rfl
@[simp] theorem timedOut_peerVer (s : State) : (timedOut s).peerVer = s.peerVer := rfl
@[simp] theorem timedOut_peerStatus (s : State) : (timedOut s).peerStatus = s.peerStatus := rfl
@[simp] theorem timedOut_peerId (s : State) : (timedOut s).peerId = s.peerId := rfl
@[simp] theorem timedOut_session (s : State) : (timedOut s).session = s.session := rfl
@[simp] theorem timedOut_activity (s : State) : (timedOut s).activity = s.activity := rfl
@[simp] theorem timedOut_ops (s : State) : (timedOut s).ops = s.ops := rfl
@[simp] theorem timedOut_result (s : State) : (timedOut s).result = s.result := rfl
@[simp] theorem timedOut_wireIn (s : State) : (timedOut s).wireIn = s.wireIn := rfl
@[simp] theorem timedOut_timeouts (s : State) : (timedOut s).timeouts = s.timeouts := rfl
@[simp] theorem timedOut_wireOut (s : State) : (timedOut s).wireOut = s.wireOut := rfl
@[simp] theorem timedOut_draws (s : State) : (timedOut s).draws = s.draws := rfl
@[simp] theorem timedOut_drawCount (s : State) : (timedOut s).drawCount = s.drawCount := rfl
@[simp] theorem timedOut_events (s : State) : (timedOut s).events = s.events := rfl

@[simp] theorem recordHello_straps (p : List Byte) (s : State) : (recordHello p s).straps = s.straps := rfl
@[simp] theorem recordHello_rxbuf (p : List Byte) (s : State) : (recordHello p s).rxbuf = s.rxbuf := rfl
@[simp] theorem recordHello_crcReg (p : List Byte) (s : State) : (recordHello p s).crcReg = s.crcReg := rfl
@[simp] theorem recordHello_pktValid (p : List Byte) (s : State) : (recordHello p s).pktValid = s.pktValid := rfl
@[simp] theorem recordHello_pktSeq (p : List Byte) (s : State) : (recordHello p s).pktSeq = s.pktSeq := rfl
@[simp] theorem recordHello_pktCmd (p : List Byte) (s : State) : (recordHello p s).pktCmd = s.pktCmd := rfl
@[simp] theorem recordHello_pktPlen (p : List Byte) (s : State) : (recordHello p s).pktPlen = s.pktPlen := rfl
@[simp] theorem recordHello_pktPayload (p : List Byte) (s : State) : (recordHello p s).pktPayload = s.pktPayload := rfl
@[simp] theorem recordHello_xerr (p : List Byte) (s : State) : (recordHello p s).xerr = s.xerr := rfl
@[simp] theorem recordHello_hsLatch (p : List Byte) (s : State) : (recordHello p s).hsLatch = s.hsLatch := rfl
@[simp] theorem recordHello_peerVersion (p : List Byte) (s : State) : (recordHello p s).peerVersion = (helloVersion p).getD s.peerVersion := rfl
@[simp] theorem recordHello_peerCaps (p : List Byte) (s : State) : (recordHello p s).peerCaps = (helloCaps p).getD s.peerCaps := rfl
@[simp] theorem recordHello_hsState (p : List Byte) (s : State) : (recordHello p s).hsState = s.hsState := rfl
@[simp] theorem recordHello_attempt (p : List Byte) (s : State) : (recordHello p s).attempt = s.attempt := rfl
@[simp] theorem recordHello_hsReason (p : List Byte) (s : State) : (recordHello p s).hsReason = s.hsReason := rfl
@[simp] theorem recordHello_hsErrcode (p : List Byte) (s : State) : (recordHello p s).hsErrcode = s.hsErrcode := rfl
@[simp] theorem recordHello_peerVer (p : List Byte) (s : State) : (recordHello p s).peerVer = s.peerVer := rfl
@[simp] theorem recordHello_peerStatus (p : List Byte) (s : State) : (recordHello p s).peerStatus = s.peerStatus := rfl
@[simp] theorem recordHello_peerId (p : List Byte) (s : State) : (recordHello p s).peerId = s.peerId := rfl
@[simp] theorem recordHello_session (p : List Byte) (s : State) : (recordHello p s).session = s.session := rfl
@[simp] theorem recordHello_activity (p : List Byte) (s : State) : (recordHello p s).activity = s.activity := rfl
@[simp] theorem recordHello_ops (p : List Byte) (s : State) : (recordHello p s).ops = s.ops := rfl
@[simp] theorem recordHello_result (p : List Byte) (s : State) : (recordHello p s).result = s.result := rfl
@[simp] theorem recordHello_wireIn (p : List Byte) (s : State) : (recordHello p s).wireIn = s.wireIn := rfl
@[simp] theorem recordHello_timeouts (p : List Byte) (s : State) : (recordHello p s).timeouts = s.timeouts := rfl
@[simp] theorem recordHello_wireOut (p : List Byte) (s : State) : (recordHello p s).wireOut = s.wireOut := rfl
@[simp] theorem recordHello_draws (p : List Byte) (s : State) : (recordHello p s).draws = s.draws := rfl
@[simp] theorem recordHello_drawCount (p : List Byte) (s : State) : (recordHello p s).drawCount = s.drawCount := rfl
@[simp] theorem recordHello_events (p : List Byte) (s : State) : (recordHello p s).events = s.events := rfl
@[simp] theorem State.drawn_straps (n : Nat) (s : State) : (s.drawn n).straps = s.straps := rfl
@[simp] theorem State.drawn_rxbuf (n : Nat) (s : State) : (s.drawn n).rxbuf = s.rxbuf := rfl
@[simp] theorem State.drawn_crcReg (n : Nat) (s : State) : (s.drawn n).crcReg = s.crcReg := rfl
@[simp] theorem State.drawn_pktValid (n : Nat) (s : State) : (s.drawn n).pktValid = s.pktValid := rfl
@[simp] theorem State.drawn_pktSeq (n : Nat) (s : State) : (s.drawn n).pktSeq = s.pktSeq := rfl
@[simp] theorem State.drawn_pktCmd (n : Nat) (s : State) : (s.drawn n).pktCmd = s.pktCmd := rfl
@[simp] theorem State.drawn_pktPlen (n : Nat) (s : State) : (s.drawn n).pktPlen = s.pktPlen := rfl
@[simp] theorem State.drawn_pktPayload (n : Nat) (s : State) : (s.drawn n).pktPayload = s.pktPayload := rfl
@[simp] theorem State.drawn_xerr (n : Nat) (s : State) : (s.drawn n).xerr = s.xerr := rfl
@[simp] theorem State.drawn_hsLatch (n : Nat) (s : State) : (s.drawn n).hsLatch = s.hsLatch := rfl
@[simp] theorem State.drawn_peerVersion (n : Nat) (s : State) : (s.drawn n).peerVersion = s.peerVersion := rfl
@[simp] theorem State.drawn_peerCaps (n : Nat) (s : State) : (s.drawn n).peerCaps = s.peerCaps := rfl
@[simp] theorem State.drawn_hsState (n : Nat) (s : State) : (s.drawn n).hsState = s.hsState := rfl
@[simp] theorem State.drawn_attempt (n : Nat) (s : State) : (s.drawn n).attempt = s.attempt := rfl
@[simp] theorem State.drawn_hsReason (n : Nat) (s : State) : (s.drawn n).hsReason = s.hsReason := rfl
@[simp] theorem State.drawn_hsErrcode (n : Nat) (s : State) : (s.drawn n).hsErrcode = s.hsErrcode := rfl
@[simp] theorem State.drawn_peerVer (n : Nat) (s : State) : (s.drawn n).peerVer = s.peerVer := rfl
@[simp] theorem State.drawn_peerStatus (n : Nat) (s : State) : (s.drawn n).peerStatus = s.peerStatus := rfl
@[simp] theorem State.drawn_peerId (n : Nat) (s : State) : (s.drawn n).peerId = s.peerId := rfl
@[simp] theorem State.drawn_session (n : Nat) (s : State) : (s.drawn n).session = s.session := rfl
@[simp] theorem State.drawn_activity (n : Nat) (s : State) : (s.drawn n).activity = s.activity := rfl
@[simp] theorem State.drawn_ops (n : Nat) (s : State) : (s.drawn n).ops = s.ops := rfl
@[simp] theorem State.drawn_result (n : Nat) (s : State) : (s.drawn n).result = s.result := rfl
@[simp] theorem State.drawn_wireIn (n : Nat) (s : State) : (s.drawn n).wireIn = s.wireIn := rfl
@[simp] theorem State.drawn_timeouts (n : Nat) (s : State) : (s.drawn n).timeouts = s.timeouts := rfl
@[simp] theorem State.drawn_wireOut (n : Nat) (s : State) : (s.drawn n).wireOut = s.wireOut := rfl
@[simp] theorem State.drawn_draws (n : Nat) (s : State) : (s.drawn n).draws = s.draws.drop n := rfl
@[simp] theorem State.drawn_drawCount (n : Nat) (s : State) : (s.drawn n).drawCount = s.drawCount + (n - s.draws.length) := rfl
@[simp] theorem State.drawn_events (n : Nat) (s : State) : (s.drawn n).events = s.events := rfl

end Sys2Proof.Machine
end

