-- ==== Sys2Proof/Laws/Ops.lean ====
section
/-! SUPPORT. One lemma for each shared operation that says everything it can do; later proofs cite these. -/

namespace Sys2Proof.Machine

open Sys2Proof Host

/-! The wire. -/

/-- `SEND_PACKET` of a payload the frame carries: the frame is sent, the scratch register holds its checksum. -/
theorem sendPacket_eq {p : List Byte} (h : p.length ≤ Config.maxPayload) (seq : Half) (cmd : Byte) (s : State) :
    sendPacket seq cmd p s =
      { s with crcReg := checksum (frameBody seq cmd p)
               wireOut := s.wireOut ++ frameBytes seq cmd p
               events := s.events ++ [.sent (frameBytes seq cmd p).length] } := by
  simp only [sendPacket, encodeFrame_eq h, transmit]

/-- A longer payload: nothing sent, nothing changed (41_frame_encoder.md R136). -/
theorem sendPacket_tooLong {p : List Byte} (h : Config.maxPayload < p.length) (seq : Half) (cmd : Byte) (s : State) :
    sendPacket seq cmd p s = s := by
  simp only [sendPacket, encodeFrame_tooLong h]

theorem sendAck_eq (seq : Half) (s : State) :
    sendAck seq s =
      { s with crcReg := checksum (frameBody seq Cmd.ack (ackPayload s.straps))
               wireOut := s.wireOut ++ frameBytes seq Cmd.ack (ackPayload s.straps)
               events := s.events ++ [.sent (frameBytes seq Cmd.ack (ackPayload s.straps)).length] } :=
  sendPacket_eq (by simp [ackPayload, Config.maxPayload]) seq Cmd.ack s

theorem sendNack_eq (seq : Half) (s : State) :
    sendPacket seq Cmd.nack nackPayload s =
      { s with crcReg := checksum (frameBody seq Cmd.nack nackPayload)
               wireOut := s.wireOut ++ frameBytes seq Cmd.nack nackPayload
               events := s.events ++ [.sent (frameBytes seq Cmd.nack nackPayload).length] } :=
  sendPacket_eq (by simp [nackPayload, Config.maxPayload]) seq Cmd.nack s

theorem sendHello_eq (seq : Half) (caps : Byte) (s : State) :
    sendPacket seq Cmd.hello (helloPayload s.straps caps) s =
      { s with crcReg := checksum (frameBody seq Cmd.hello (helloPayload s.straps caps))
               wireOut := s.wireOut ++ frameBytes seq Cmd.hello (helloPayload s.straps caps)
               events := s.events ++ [.sent (frameBytes seq Cmd.hello (helloPayload s.straps caps)).length] } :=
  sendPacket_eq (by simp [helloPayload, Config.maxPayload]) seq Cmd.hello s

/-- `Transport.recv` (20_memory.md R58): a `Timeout` that takes nothing, or the oldest byte. -/
theorem recv_cases (s : State) :
    recv s = (.timeout, { s with timeouts := s.timeouts.tail }) ∨
      ∃ b queue, s.wireIn = b :: queue ∧
        recv s = (.byte b, { s with wireIn := queue, timeouts := s.timeouts.tail }) := by
  unfold recv
  split
  · next later h => exact .inl (by simp [h])
  · split
    · exact .inl rfl
    · next b queue h => exact .inr ⟨b, queue, h, rfl⟩

theorem recv_nothing {s : State} (h : s.wireIn = []) : recv s = (.timeout, { s with timeouts := s.timeouts.tail }) := by
  rcases recv_cases s with h' | ⟨b, queue, hw, -⟩
  · exact h'
  · rw [h] at hw; cases hw

theorem recv_timeout {s : State} {later : List Bool} (h : s.timeouts = true :: later) :
    recv s = (.timeout, { s with timeouts := later }) := by
  simp [recv, h]

theorem recv_byte {s : State} {b : Byte} {queue : List Byte} (h : s.wireIn = b :: queue)
    (ht : s.timeouts.head? ≠ some true) :
    recv s = (.byte b, { s with wireIn := queue, timeouts := s.timeouts.tail }) := by
  unfold recv
  split
  · next later h' => simp [h'] at ht
  · simp [h]

/-! The decoder on the state. -/

/-- `TRY_DECODE` (42_stream_decoder.md R151): none, or a Packet into the holding registers. -/
theorem tryDecode_cases (s : State) :
    ((scan s.crcReg s.rxbuf).packet = none ∧ Waiting (scan s.crcReg s.rxbuf).rest ∧
        tryDecode s = (none, { s with rxbuf := (scan s.crcReg s.rxbuf).rest, crcReg := (scan s.crcReg s.rxbuf).crc
                                      pktValid := false })) ∨
      ∃ p, (scan s.crcReg s.rxbuf).packet = some p ∧ p.payload.length ≤ Config.maxPayload ∧
        tryDecode s =
          (some p, State.holdPacket p { s with rxbuf := (scan s.crcReg s.rxbuf).rest
                                               crcReg := (scan s.crcReg s.rxbuf).crc }) := by
  rcases scan_cases s.crcReg s.rxbuf with ⟨h1, h2, -⟩ | ⟨p, -, h1, h2, -⟩
  · exact .inl ⟨h1, h2, by simp [tryDecode, h1, State.holdNone]⟩
  · exact .inr ⟨p, h1, h2, by simp [tryDecode, h1]⟩

/-- On a buffer that waits, `TRY_DECODE` only clears `PKT_VALID`. -/
theorem tryDecode_waiting {s : State} (h : Waiting s.rxbuf) : tryDecode s = (none, { s with pktValid := false }) := by
  simp [tryDecode, scan_of_waiting h, State.holdNone]

/-- On a buffer that begins with a valid frame it gives the frame's Packet. -/
theorem tryDecode_frameBytes {s : State} {seq : Half} {cmd : Byte} {p rest : List Byte}
    (h : s.rxbuf = frameBytes seq cmd p ++ rest) (hp : p.length ≤ Config.maxPayload) :
    tryDecode s =
      (some ⟨seq, cmd, p⟩,
        State.holdPacket ⟨seq, cmd, p⟩ { s with rxbuf := rest, crcReg := checksum (frameBody seq cmd p) }) := by
  simp [tryDecode, h, scan_frameBytes _ _ _ _ _ hp]

/-- `RX_APPEND` with room (R150). -/
theorem appendByte_eq {s : State} (h : s.rxbuf.length < s.straps.rxbufCap) (b : Byte) :
    appendByte b s = .next { s with rxbuf := s.rxbuf ++ [b] } := by
  simp [appendByte, Memory.append, h]

/-- `RX_APPEND` on a full buffer is refused (R150). -/
theorem appendByte_full {s : State} (h : ¬ s.rxbuf.length < s.straps.rxbufCap) (b : Byte) :
    appendByte b s = .refused .rxbufFull := by
  simp [appendByte, Memory.append, h]

/-! The collaborators. -/

theorem foldl_call (es : List Event) (s : State) :
    es.foldl (fun s e => call e s) s = { s with events := s.events ++ es } := by
  induction es generalizing s with
  | nil => simp
  | cons e es ih => rw [List.foldl_cons, ih]; simp [call]

theorem coming_listed {s : State} {k : Nat} {w : Word} (h : s.draws[k]? = some w) : s.coming k = w := by
  simp [State.coming, h]

/-- Beyond the listed inputs the value is the free one. -/
theorem coming_free {s : State} {k : Nat} (h : s.draws.length ≤ k) :
    s.coming k = Config.freeDraw (s.drawCount + (k - s.draws.length)) := by
  simp [State.coming, List.getElem?_eq_none h]

/-- Drawing moves on along the values to come. -/
theorem coming_drawn (n k : Nat) (s : State) : (s.drawn n).coming k = s.coming (n + k) := by
  simp only [State.coming, State.drawn, List.getElem?_drop, List.length_drop]
  by_cases h : n + k < s.draws.length
  · simp [h]
  · rw [List.getElem?_eq_none (by omega)]
    simp only
    congr 1
    omega

theorem calibrationReply_length (s : State) : (calibrationReply s).length = 144 := by
  simp [calibrationReply, List.range, List.range.loop]

/-- GET_ANGLE_CALIBRATIONS, its state written out (45_dispatcher.md R257). -/
theorem handleGetAngleCalibrations_eq (seq : Half) (s : State) :
    handleGetAngleCalibrations seq s =
      { s with
        crcReg := checksum (frameBody seq Cmd.getAngleCalibrations (calibrationReply s))
        wireOut := s.wireOut ++ frameBytes seq Cmd.getAngleCalibrations (calibrationReply s)
        draws := s.draws.drop 36
        drawCount := s.drawCount + (36 - s.draws.length)
        events :=
          s.events ++ (List.range Config.numChannels).map Event.getCalibration ++
            [.sent (frameBytes seq Cmd.getAngleCalibrations (calibrationReply s)).length] } := by
  rw [handleGetAngleCalibrations, foldl_call,
    sendPacket_eq (by rw [calibrationReply_length]; simp [Config.maxPayload])]
  rfl

/-- The three GET handlers that reply with one value, their state written out (R258 to R260). -/
theorem oneValueReply_eq (seq : Half) (cmd : Byte) (e : Event) (s : State) :
    sendPacket seq cmd (bytes32 (draw (call e s)).1) (draw (call e s)).2 =
      { s with
        crcReg := checksum (frameBody seq cmd (bytes32 (s.coming 0)))
        wireOut := s.wireOut ++ frameBytes seq cmd (bytes32 (s.coming 0))
        draws := s.draws.drop 1
        drawCount := s.drawCount + (1 - s.draws.length)
        events := s.events ++ [e] ++ [.sent (frameBytes seq cmd (bytes32 (s.coming 0))).length] } := by
  rw [sendPacket_eq (by simp [Config.maxPayload])]
  rfl

/-! Receiving an instruction. -/

theorem receive_host {s : State} (h : s.framedHost) (p : Packet) (handler : State → State) :
    receive p handler s = .next (hostReceive p s) := by
  simp [receive, h.1, h.2]

theorem receive_device {s : State} (h : s.straps.role = .device) (hv : s.straps.dispatchVariant = .framed) (p : Packet)
    (handler : State → State) : receive p handler s = .next (handler s) := by
  simp [receive, h, hv]

theorem receive_raw {s : State} (hv : s.straps.dispatchVariant = .raw) (p : Packet) (handler : State → State) :
    receive p handler s = .refused .rawVariant := by
  simp [receive, hv]

/-- Everything that receiving an instruction can do. -/
theorem receive_cases {p : Packet} {handler : State → State} {s t : State} (h : receive p handler s = .next t) :
    s.straps.dispatchVariant = .framed ∧
      (s.straps.role = .host ∧ t = hostReceive p s ∨ s.straps.role = .device ∧ t = handler s) := by
  unfold receive at h
  split at h
  · cases h
  · next hv =>
    split at h
    · next hr => cases h; exact ⟨hv, .inl ⟨hr, rfl⟩⟩
    · next hr => cases h; exact ⟨hv, .inr ⟨hr, rfl⟩⟩

theorem gated_open {s : State} (h : s.hsLatch = true) (handler : State → State) : gated handler s = handler s := by
  simp [gated, h]

theorem gated_closed {s : State} (h : s.hsLatch = false) (handler : State → State) : gated handler s = s := by
  simp [gated, h, applicationError]

/-- A Packet outside response position is handed to the client. -/
theorem hostReceive_idle {s : State} (h : s.hsState ≠ .awaitingResponse) (p : Packet) :
    hostReceive p s = { s with result := .packet p } := by
  simp [hostReceive, h]

theorem hostReceive_awaiting {s : State} (h : s.hsState = .awaitingResponse) (p : Packet) :
    hostReceive p s = classify p s := by
  simp [hostReceive, h]

/-- What a classification writes: an outcome, its reason, and the registers of the response; never anything else. -/
theorem classify_cases (p : Packet) (s : State) :
    ∃ st why code v st' i, (st = .accepted ∨ st = .rejected) ∧
      classify p s = { s with hsState := st, hsReason := why, hsErrcode := code, peerVer := v, peerStatus := st'
                              peerId := i } ∧
      (st = .accepted → v = s.straps.protocolVersion ∧ st' = Code.statusOk ∧ why = .none ∧ p.command = Cmd.ack) := by
  unfold classify
  split
  · split
    · exact ⟨_, _, _, _, _, _, .inr rfl, rfl, by simp⟩
    · exact ⟨_, _, _, _, _, _, .inr rfl, rfl, by simp⟩
  split
  · next hc =>
    split
    · exact ⟨_, _, _, _, _, _, .inr rfl, rfl, by simp⟩
    · simp only
      split
      · exact ⟨_, _, _, _, _, _, .inr rfl, rfl, by simp⟩
      split
      · exact ⟨_, _, _, _, _, _, .inr rfl, rfl, by simp⟩
      · next hv hs => exact ⟨_, _, _, _, _, _, .inl rfl, rfl, by simp_all⟩
  · exact ⟨_, _, _, _, _, _, .inr rfl, rfl, by simp⟩

end Sys2Proof.Machine
end

