-- ==== Sys2Proof/Laws/PerInstr.lean ====
section
/-! SUPPORT. What holds of every instruction as syntax, one lemma per constructor. -/

namespace Sys2Proof.Laws.CommandByte

open Sys2Proof Sys2Proof.Machine

/-- Byte 4 of an instruction's frame is its command (30_encoding.md R81, R95), and where the instruction can arrive, the
Packet of that frame is routed back to the instruction (R111). -/
def Statement (i : Instr) : Prop :=
  (∀ f, encode i = some f → byteAt f 4 = i.toPacket.command) ∧
    ∀ r, i.arrivesAt r = true → Instr.ofPacket r i.toPacket = some i

/-- The part of the statement that all instructions share: the frame layout. -/
theorem byte_four (i : Instr) (f : List Byte) (h : encode i = some f) : byteAt f 4 = i.toPacket.command := by
  rw [encode, encodeFrame] at h
  split at h
  · cases h; rfl
  · cases h

theorem setAngleCalibrations (seq : Half) (p : List Byte) : Statement (.setAngleCalibrations seq p) :=
  ⟨byte_four _, fun _ _ => rfl⟩

theorem setTargetAngle (seq : Half) (p : List Byte) : Statement (.setTargetAngle seq p) :=
  ⟨byte_four _, fun _ _ => rfl⟩

theorem setPowerRelay (seq : Half) (p : List Byte) : Statement (.setPowerRelay seq p) :=
  ⟨byte_four _, fun _ _ => rfl⟩

theorem getAngleCalibrations (seq : Half) (p : List Byte) : Statement (.getAngleCalibrations seq p) :=
  ⟨byte_four _, fun r h => by cases r <;> [cases h; rfl]⟩

theorem getAngleCalibrationsReply (seq : Half) (p : List Byte) : Statement (.getAngleCalibrationsReply seq p) :=
  ⟨byte_four _, fun r h => by cases r <;> [rfl; cases h]⟩

theorem getCurrent (seq : Half) (p : List Byte) : Statement (.getCurrent seq p) :=
  ⟨byte_four _, fun r h => by cases r <;> [cases h; rfl]⟩

theorem getCurrentReply (seq : Half) (p : List Byte) : Statement (.getCurrentReply seq p) :=
  ⟨byte_four _, fun r h => by cases r <;> [rfl; cases h]⟩

theorem getVoltage (seq : Half) (p : List Byte) : Statement (.getVoltage seq p) :=
  ⟨byte_four _, fun r h => by cases r <;> [cases h; rfl]⟩

theorem getVoltageReply (seq : Half) (p : List Byte) : Statement (.getVoltageReply seq p) :=
  ⟨byte_four _, fun r h => by cases r <;> [rfl; cases h]⟩

theorem getSensor (seq : Half) (p : List Byte) : Statement (.getSensor seq p) :=
  ⟨byte_four _, fun r h => by cases r <;> [cases h; rfl]⟩

theorem getSensorReply (seq : Half) (p : List Byte) : Statement (.getSensorReply seq p) :=
  ⟨byte_four _, fun r h => by cases r <;> [rfl; cases h]⟩

theorem hello (seq : Half) (p : List Byte) : Statement (.hello seq p) :=
  ⟨byte_four _, fun _ _ => rfl⟩

theorem ack (seq : Half) (p : List Byte) : Statement (.ack seq p) :=
  ⟨byte_four _, fun _ _ => rfl⟩

theorem nack (seq : Half) (p : List Byte) : Statement (.nack seq p) :=
  ⟨byte_four _, fun _ _ => rfl⟩

end Sys2Proof.Laws.CommandByte
end

