-- ==== Sys2Proof/Laws/Step.lean ====
section
/-! SUPPORT. What one step can do, said once: the meaning of an instruction at each side, the turns of the operation in
progress, the start of the next operation. Proofs about `step` cite these and unfold nothing. -/

namespace Sys2Proof.Machine

open Sys2Proof Host

/-! Instructions. -/

/-- At a host every instruction is the Packet it is (44_handshake.md R213, R216). -/
theorem exec_host {s : State} (h : s.framedHost) (i : Instr) :
    exec i s = .next (hostReceive i.toPacket s) := by
  cases i <;> exact receive_host h _ _

/-- A Packet of no row at a host is treated as every other. -/
theorem actOn_host {s : State} (h : s.framedHost) (p : Packet) : actOn p s = .next (hostReceive p s) := by
  unfold actOn
  split
  · next i hi => rw [exec_host h, (toPacket_ofPacket hi).1]
  · exact receive_host h _ _

/-- At a device of the framed variant an instruction is what the routing table does with its Packet (45_dispatcher.md
R250). -/
theorem exec_device {s : State} (h : s.straps.role = .device) (hv : s.straps.dispatchVariant = .framed) (i : Instr) :
    exec i s = .next (devPollPacket i.toPacket s) := by
  cases i <;> refine (receive_device h hv _ _).trans (congrArg _ ?_) <;>
    simp [devPollPacket, Instr.toPacket, gated, route, runHandler, applicationError] <;>
    cases s.hsLatch <;> first | rfl | exact fun e => absurd e (by decide)

/-! With the gate open each command is its handler (45_dispatcher.md R250). -/

theorem receive_open {s : State} (h : s.gateOpen) (p : Packet) (handler : State → State) :
    receive p (gated handler) s = .next (handler s) := by
  rw [receive_device h.1 h.2.1, gated_open h.2.2]

theorem exec_setAngleCalibrations_open {s : State} (h : s.gateOpen) (seq : Half) (p : List Byte) :
    exec (.setAngleCalibrations seq p) s = .next (handleSetAngleCalibrations seq p s) := receive_open h _ _

theorem exec_setTargetAngle_open {s : State} (h : s.gateOpen) (seq : Half) (p : List Byte) :
    exec (.setTargetAngle seq p) s = .next (handleSetTargetAngle seq p s) := receive_open h _ _

theorem exec_setPowerRelay_open {s : State} (h : s.gateOpen) (seq : Half) (p : List Byte) :
    exec (.setPowerRelay seq p) s = .next (handleSetPowerRelay seq p s) := receive_open h _ _

theorem exec_getAngleCalibrations_open {s : State} (h : s.gateOpen) (seq : Half) (p : List Byte) :
    exec (.getAngleCalibrations seq p) s = .next (handleGetAngleCalibrations seq s) := receive_open h _ _

theorem exec_getCurrent_open {s : State} (h : s.gateOpen) (seq : Half) (p : List Byte) :
    exec (.getCurrent seq p) s = .next (handleGetCurrent seq s) := receive_open h _ _

theorem exec_getVoltage_open {s : State} (h : s.gateOpen) (seq : Half) (p : List Byte) :
    exec (.getVoltage seq p) s = .next (handleGetVoltage seq s) := receive_open h _ _

theorem exec_getSensor_open {s : State} (h : s.gateOpen) (seq : Half) (p : List Byte) :
    exec (.getSensor seq p) s = .next (handleGetSensor seq p s) := receive_open h _ _

/-! The handlers that need payload bytes, with their number (R253). -/

theorem handleSetAngleCalibrations_eq (seq : Half) (p : List Byte) (s : State) :
    handleSetAngleCalibrations seq p s =
      if p.length < 72 then s else sendAck seq { s with events := s.events ++ calibrationCalls p } :=
  congrArg (fun t => if p.length < 72 then s else sendAck seq t) (foldl_call _ s)

theorem handleSetTargetAngle_eq (seq : Half) (p : List Byte) (s : State) :
    handleSetTargetAngle seq p s =
      if p.length < 3 then s
      else if 18 ≤ (targetChannel p).toNat then s
      else sendAckIfSet seq (call (.setTarget (targetChannel p) (targetAngle p)) s) := rfl

theorem handleSetPowerRelay_eq (seq : Half) (p : List Byte) (s : State) :
    handleSetPowerRelay seq p s =
      if p.length < 1 then s
      else
        match relayFlag p with
        | some flag => sendAckIfSet seq (call (.relaySet flag) s)
        | none => s := rfl

theorem handleGetSensor_eq (seq : Half) (p : List Byte) (s : State) :
    handleGetSensor seq p s =
      if p.length < 1 then s
      else
        sendPacket seq Cmd.getSensor (bytes32 (draw (call (.sensorRead (sensorChannel p)) s)).1)
          (draw (call (.sensorRead (sensorChannel p)) s)).2 := rfl

/-- A Packet of no row at a device does nothing (R252). -/
theorem actOn_device_unassigned {s : State} (h : s.straps.role = .device) (hv : s.straps.dispatchVariant = .framed)
    {p : Packet} (hp : Instr.ofPacket .device p = none) : actOn p s = .next s := by
  simp only [actOn, h, hp]
  exact receive_device h hv _ _

/-- The RAW variant is refused whatever is received (R265). -/
theorem exec_raw {s : State} (hv : s.straps.dispatchVariant = .raw) (i : Instr) : exec i s = .refused .rawVariant := by
  cases i <;> exact receive_raw hv _ _

theorem actOn_raw {s : State} (hv : s.straps.dispatchVariant = .raw) (p : Packet) :
    actOn p s = .refused .rawVariant := by
  unfold actOn
  split
  · exact exec_raw hv _
  · exact receive_raw hv _ _

/-- A code that the routing table knows has a row. -/
theorem route_ofPacket {p : Packet} (h : Instr.ofPacket .device p = none) : p.command ≠ Cmd.hello ∧ route p.command = none := by
  unfold Instr.ofPacket at h
  split at h
  · cases h
  split at h
  · cases h
  split at h
  · cases h
  split at h
  · cases h
  split at h
  · cases h
  split at h
  · cases h
  split at h
  · cases h
  split at h
  · cases h
  split at h
  · cases h
  split at h
  · cases h
  refine ⟨by assumption, ?_⟩
  have key : ∀ k : Byte, p.command ≠ k → p.command.toNat ≠ k.toNat := fun k hk e => hk (BitVec.eq_of_toNat_eq e)
  unfold route
  split <;> first | rfl | (rename_i e; exfalso; first
    | exact key 0x01#8 (by assumption) e | exact key 0x02#8 (by assumption) e | exact key 0x03#8 (by assumption) e
    | exact key 0x04#8 (by assumption) e | exact key 0x05#8 (by assumption) e | exact key 0x06#8 (by assumption) e
    | exact key 0x07#8 (by assumption) e | exact key 0x10#8 (by assumption) e)

/-- Every Packet at a device of the framed variant is acted on, and takes a next state. -/
theorem actOn_device {s : State} (h : s.straps.role = .device) (hv : s.straps.dispatchVariant = .framed) (p : Packet) :
    actOn p s = .next (devPollPacket p s) := by
  cases hi : Instr.ofPacket .device p with
  | some i =>
    simp only [actOn, h, hi]
    rw [exec_device h hv, (toPacket_ofPacket hi).1]
  | none =>
    rw [actOn_device_unassigned h hv hi]
    obtain ⟨h1, h2⟩ := route_ofPacket hi
    simp [devPollPacket, h1, h2]

/-- What a handler can do to a state, in one form: calls and draws added, and one response behind the calls or none; only
HELLO writes the latch and the peer's registers. -/
def Handled (p : Packet) (s t : State) : Prop :=
  ∃ crc out latch version caps draws count calls sends,
    t =
      { s with
        crcReg := crc, wireOut := s.wireOut ++ out, hsLatch := latch, peerVersion := version, peerCaps := caps
        draws := draws, drawCount := count, events := s.events ++ calls ++ sends } ∧
    (∀ e ∈ calls, e.isCall = true) ∧
    (out = [] ∧ sends = [] ∧ crc = s.crcReg ∨
      ∃ cmd payload, sends = [.sent out.length] ∧ payload.length ≤ Config.maxPayload ∧ (cmd = Cmd.ack ∨ cmd = Cmd.nack ∨ cmd = p.command) ∧
        out = frameBytes p.sequence cmd payload ∧ crc = checksum (frameBody p.sequence cmd payload)) ∧
    (s.hsLatch = true → latch = true) ∧
    (s.hsLatch = false → latch = true →
      p.command = Cmd.hello ∧ helloVersion p.payload = some s.straps.protocolVersion) ∧
    (p.command ≠ Cmd.hello → latch = s.hsLatch ∧ version = s.peerVersion ∧ caps = s.peerCaps) ∧
    (p.command.toNat < 4 ∨ 7 < p.command.toNat → draws = s.draws ∧ count = s.drawCount)

theorem Handled.nothing (p : Packet) (s : State) : Handled p s s :=
  ⟨s.crcReg, [], s.hsLatch, s.peerVersion, s.peerCaps, s.draws, s.drawCount, [], [], by simp, by simp,
    .inl ⟨rfl, rfl, rfl⟩, id,
    fun h h' => by simp_all, fun _ => ⟨rfl, rfl, rfl⟩, fun _ => ⟨rfl, rfl⟩⟩

/-- One response, calls, and draws that only a GET may make. -/
theorem Handled.response {p : Packet} {s t : State} (cmd : Byte) (payload : List Byte) (draws : List Word) (count : Nat)
    (calls : List Event) (hcall : ∀ e ∈ calls, e.isCall = true) (hl : payload.length ≤ Config.maxPayload)
    (hc : cmd = Cmd.ack ∨ cmd = Cmd.nack ∨ cmd = p.command)
    (ht : t = { s with crcReg := checksum (frameBody p.sequence cmd payload)
                       wireOut := s.wireOut ++ frameBytes p.sequence cmd payload
                       draws := draws, drawCount := count
                       events := s.events ++ calls ++ [.sent (frameBytes p.sequence cmd payload).length] })
    (hd : p.command.toNat < 4 ∨ 7 < p.command.toNat → draws = s.draws ∧ count = s.drawCount) : Handled p s t :=
  ⟨_, _, s.hsLatch, s.peerVersion, s.peerCaps, draws, count, calls, _, ht, hcall,
    .inr ⟨cmd, payload, rfl, hl, hc, rfl, rfl⟩, id,
    fun h h' => by simp_all, fun _ => ⟨rfl, rfl, rfl⟩, hd⟩

/-- Calls and no response. -/
theorem Handled.calls {p : Packet} {s t : State} (calls : List Event) (hcall : ∀ e ∈ calls, e.isCall = true)
    (ht : t = { s with events := s.events ++ calls }) : Handled p s t :=
  ⟨s.crcReg, [], s.hsLatch, s.peerVersion, s.peerCaps, s.draws, s.drawCount, calls, [], by simp [ht], hcall,
    .inl ⟨rfl, rfl, rfl⟩, id,
    fun h h' => by simp_all, fun _ => ⟨rfl, rfl, rfl⟩, fun _ => ⟨rfl, rfl⟩⟩

theorem handled_hello {p : Packet} (hc : p.command = Cmd.hello) (s : State) :
    Handled p s (handleHello p.sequence p.payload s) := by
  unfold handleHello
  simp only
  split
  · next hv =>
    rw [sendAck_eq]
    exact ⟨checksum (frameBody p.sequence Cmd.ack (ackPayload s.straps)),
      frameBytes p.sequence Cmd.ack (ackPayload s.straps), true, (helloVersion p.payload).getD s.peerVersion,
      (helloCaps p.payload).getD s.peerCaps, s.draws, s.drawCount, [], _, by simp [recordHello], by simp,
      .inr ⟨_, _, rfl, by simp [ackPayload, Config.maxPayload], .inl rfl, rfl, rfl⟩, fun _ => rfl, fun _ _ => ⟨hc, hv⟩,
      fun h => absurd hc h, fun _ => ⟨rfl, rfl⟩⟩
  · rw [sendNack_eq]
    exact ⟨checksum (frameBody p.sequence Cmd.nack nackPayload), frameBytes p.sequence Cmd.nack nackPayload, s.hsLatch,
      (helloVersion p.payload).getD s.peerVersion, (helloCaps p.payload).getD s.peerCaps, s.draws, s.drawCount, [], _,
      by simp [recordHello], by simp, .inr ⟨_, _, rfl, by simp [nackPayload, Config.maxPayload], .inr (.inl rfl), rfl, rfl⟩, id,
      fun h h' => by simp_all, fun h => absurd hc h, fun _ => ⟨rfl, rfl⟩⟩

theorem handled_ackIfSet {p : Packet} (e : Event) (he : e.isCall = true) (s : State) :
    Handled p s (sendAckIfSet p.sequence (call e s)) := by
  unfold sendAckIfSet
  split
  · exact .response Cmd.ack (ackPayload s.straps) s.draws s.drawCount [e] (by simpa using he)
      (by simp [ackPayload, Config.maxPayload]) (.inl rfl) (sendAck_eq _ _) fun _ => ⟨rfl, rfl⟩
  · exact .calls [e] (by simpa using he) rfl

theorem handled_oneValue {p : Packet} (e : Event) (he : e.isCall = true) (s : State) (cmd : Byte) (hc : cmd = p.command)
    (hr : 4 ≤ cmd.toNat ∧ cmd.toNat ≤ 7) :
    Handled p s (sendPacket p.sequence cmd (bytes32 (draw (call e s)).1) (draw (call e s)).2) :=
  .response cmd (bytes32 (s.coming 0)) (s.draws.drop 1) (s.drawCount + (1 - s.draws.length)) [e] (by simpa using he)
    (by simp [Config.maxPayload]) (.inr (.inr hc)) (oneValueReply_eq _ _ _ _) fun h => by subst hc; omega

/-- The code a route stands for. -/
theorem route_eq_some {cmd : Byte} {h : Handler} (hr : route cmd = some h) :
    cmd = (match h with
      | .setAngleCalibrations => Cmd.setAngleCalibrations
      | .setTargetAngle => Cmd.setTargetAngle
      | .setPowerRelay => Cmd.setPowerRelay
      | .getAngleCalibrations => Cmd.getAngleCalibrations
      | .getCurrent => Cmd.getCurrent
      | .getVoltage => Cmd.getVoltage
      | .getSensor => Cmd.getSensor
      | .hello => Cmd.hello) := by
  unfold route at hr
  split at hr <;> first | (cases hr; apply BitVec.eq_of_toNat_eq; assumption) | cases hr

theorem handled_runHandler {p : Packet} {h : Handler} (hr : route p.command = some h) (s : State) :
    Handled p s (runHandler h p s) := by
  have hc := route_eq_some hr
  cases h <;> simp only [runHandler]
  · unfold handleSetAngleCalibrations
    split
    · exact .nothing p s
    · exact .response Cmd.ack (ackPayload s.straps) s.draws s.drawCount (calibrationCalls p.payload)
        (by simp [calibrationCalls, Event.isCall]) (by simp [ackPayload, Config.maxPayload]) (.inl rfl) (by rw [foldl_call, sendAck_eq]) fun _ => ⟨rfl, rfl⟩
  · unfold handleSetTargetAngle
    split
    · exact .nothing p s
    split
    · exact .nothing p s
    · exact handled_ackIfSet _ rfl s
  · unfold handleSetPowerRelay
    split
    · exact .nothing p s
    split
    · exact handled_ackIfSet _ rfl s
    · exact .nothing p s
  · exact .response Cmd.getAngleCalibrations (calibrationReply s) _ _ _ (by simp [Event.isCall])
      (by rw [calibrationReply_length]; simp [Config.maxPayload]) (.inr (.inr hc.symm))
      (handleGetAngleCalibrations_eq _ _) fun h' => by rw [hc] at h'; simp at h'
  · exact handled_oneValue _ rfl s _ hc.symm (by decide)
  · exact handled_oneValue _ rfl s _ hc.symm (by decide)
  · unfold handleGetSensor
    split
    · exact .nothing p s
    · exact handled_oneValue _ rfl s _ hc.symm (by decide)
  · exact handled_hello hc s

/-- Everything a device does with a Packet. -/
theorem devPollPacket_handled (p : Packet) (s : State) : Handled p s (devPollPacket p s) := by
  unfold devPollPacket
  split
  · next hc => exact handled_hello hc s
  split
  · exact .nothing p s
  split
  · exact .nothing p s
  · next h hr => exact handled_runHandler hr s

/-! The operation in progress. -/

theorem beginAttempt_eq (seq : Half) (caps : Byte) (retry : Option Retry) (s : State) :
    beginAttempt seq caps retry s =
      { s with
        crcReg := checksum (frameBody seq Cmd.hello (helloPayload s.straps caps))
        wireOut := s.wireOut ++ frameBytes seq Cmd.hello (helloPayload s.straps caps)
        events := s.events ++ [.sent (frameBytes seq Cmd.hello (helloPayload s.straps caps)).length]
        hsReason := .none
        hsState := .awaitingResponse
        activity := .packet (.handshake s.straps.hsRecvAttempts retry) } := by
  simp only [beginAttempt]
  rw [show s.straps = ({ s with hsState := HsState.idle, hsReason := HsReason.none } : State).straps from rfl,
    sendHello_eq]

/-- The four ways on from an attempt that has its outcome (44_handshake.md R215). -/
theorem afterAttempt_cases {retry : Option Retry} {s t : State} (h : afterAttempt retry s = .next t) :
    (retry = none ∧ t = finish .done s) ∨
      (∃ r, retry = some r ∧ s.hsState = .accepted ∧ t = finish .done { s with session := .established }) ∨
      (∃ q more caps, retry = some ⟨q :: more, caps⟩ ∧ s.hsState ≠ .accepted ∧ s.attempt < s.straps.hsMaxAttempts ∧
        t = beginAttempt q caps (some ⟨more, caps⟩) { s with attempt := s.attempt + 1 }) ∨
      ∃ r, retry = some r ∧ s.hsState ≠ .accepted ∧ ¬ s.attempt < s.straps.hsMaxAttempts ∧
        t = finish .done { s with session := .failed } := by
  unfold afterAttempt at h
  split at h
  · cases h; exact .inl ⟨rfl, rfl⟩
  · next r =>
    split at h
    · next ha => cases h; exact .inr (.inl ⟨r, rfl, ha, rfl⟩)
    · next ha =>
      obtain ⟨seqs, caps⟩ := r
      unfold establishLoop at h
      split at h
      · next hlt =>
        simp only at h
        split at h
        · next q more => cases h; exact .inr (.inr (.inl ⟨q, more, caps, rfl, ha, hlt, rfl⟩))
        · cases h
      · next hlt => cases h; exact .inr (.inr (.inr ⟨_, rfl, ha, hlt, rfl⟩))

/-- What is done with a received Packet. -/
theorem actOn_cases {p : Packet} {s t : State} (h : actOn p s = .next t) :
    s.straps.dispatchVariant = .framed ∧
      (s.straps.role = .host ∧ t = hostReceive p s ∨ s.straps.role = .device ∧ t = devPollPacket p s) := by
  cases hv : s.straps.dispatchVariant with
  | raw => rw [actOn_raw hv] at h; cases h
  | framed =>
    cases hr : s.straps.role with
    | host => rw [actOn_host ⟨hr, hv⟩] at h; cases h; exact ⟨rfl, .inl ⟨rfl, rfl⟩⟩
    | device => rw [actOn_device hr hv] at h; cases h; exact ⟨rfl, .inr ⟨rfl, rfl⟩⟩

/-- One turn of the loop of `RECV_PACKET` (43_transport.md R187): a Packet, a `Timeout`, or one more byte. -/
theorem packetTurn_cases {who : Caller} {s t : State} (h : packetTurn who s = .next t) :
    (∃ p u, tryDecode s = (some p, u) ∧ deliver who p u = .next t) ∨
      (∃ u, tryDecode s = (none, u) ∧ noPacket who { u with timeouts := u.timeouts.tail } = .next t) ∨
      ∃ u b queue, tryDecode s = (none, u) ∧ u.wireIn = b :: queue ∧ u.rxbuf.length < u.straps.rxbufCap ∧
        t = { u with wireIn := queue, timeouts := u.timeouts.tail, rxbuf := u.rxbuf ++ [b] } := by
  unfold packetTurn at h
  split at h
  · next p u hd => exact .inl ⟨p, u, hd, h⟩
  · next u hd =>
    rcases recv_cases u with hr | ⟨b, queue, hw, hr⟩
    · rw [hr] at h; exact .inr (.inl ⟨u, hd, h⟩)
    · rw [hr] at h
      simp only [appendByte] at h
      split at h
      · next m hm =>
        obtain ⟨hlt, rfl⟩ := Memory.append_eq hm
        cases h
        exact .inr (.inr ⟨u, b, queue, hd, hw, hlt, rfl⟩)
      · cases h

/-- Everything one step can be. -/
theorem step_cases {s t : State} (h : step s = .next t) :
    s.configured ∧
      (s.activity = .idle ∧ s.ops = [] ∧ t = s ∨
        (∃ o later, s.activity = .idle ∧ s.ops = o :: later ∧ startOp o { s with ops := later } = .next t) ∨
        (∃ width got, s.activity = .scalar width got ∧ t = scalarTurn width got s) ∨
        ∃ who, s.activity = .packet who ∧ packetTurn who s = .next t) := by
  unfold step at h
  split at h
  · cases h
  next hc =>
  refine ⟨hc, ?_⟩
  unfold turn at h
  split at h
  · next ha =>
    split at h
    · next ho => cases h; exact .inl ⟨ha, ho, rfl⟩
    · next o later ho => exact .inr (.inl ⟨o, later, ha, ho, h⟩)
  · next width got ha => cases h; exact .inr (.inr (.inl ⟨width, got, ha, rfl⟩))
  · next who ha => exact .inr (.inr (.inr ⟨who, ha, h⟩))

theorem step_of_configured {s : State} (h : s.configured) : step s = turn s := by
  rw [step, show configRefusal s.straps = none from h]

/-! Runs. -/

@[simp] theorem run_zero (s : State) : run 0 s = .next s := rfl

/-- A run of any machine, its first step taken apart. -/
theorem run_succ (M : Host.Core) (k : Nat) (s : M.State) :
    M.run (k + 1) s =
      match M.step s with
      | .next t => M.run k t
      | .fault f => .fault f
      | .refused r => .refused r := rfl

/-- The first step of a run. -/
theorem run_step {k : Nat} {s t : State} (h : step s = .next t) : run (k + 1) s = run k t := by
  have h' : core.step s = .next t := h
  exact (run_succ core k s).trans (by rw [h'])

/-- A run of one step is that step. -/
theorem run_one (s : State) : run 1 s = step s := by
  cases hs : step s with
  | next t => rw [run_step hs, run_zero]
  | fault f =>
    have h' : core.step s = .fault f := hs
    exact (run_succ core 0 s).trans (by rw [h']; rfl)
  | refused r =>
    have h' : core.step s = .refused r := hs
    exact (run_succ core 0 s).trans (by rw [h']; rfl)

/-- A step that stops ends the run. -/
theorem run_stops {k : Nat} {s : State} (h : ∀ t, step s ≠ .next t) : ∀ t, run (k + 1) s ≠ .next t := by
  intro t ht
  cases hs : step s with
  | next u => exact h u hs
  | fault f =>
    have h' : core.step s = .fault f := hs
    have e : run (k + 1) s = .fault f := (run_succ core k s).trans (by rw [h']; rfl)
    rw [e] at ht; cases ht
  | refused r =>
    have h' : core.step s = .refused r := hs
    have e : run (k + 1) s = .refused r := (run_succ core k s).trans (by rw [h']; rfl)
    rw [e] at ht; cases ht

/-- A run is a run and then the rest of it. -/
theorem run_add {a b : Nat} {s t : State} (h : run a s = .next t) : run (a + b) s = run b t := by
  induction a generalizing s with
  | zero => cases h; rw [Nat.zero_add]
  | succ a ih =>
    by_cases hs : ∃ u, step s = .next u
    · obtain ⟨u, hu⟩ := hs
      rw [run_step hu] at h
      rw [Nat.add_right_comm, run_step hu, ih h]
    · exact absurd h (run_stops (fun u hu => hs ⟨u, hu⟩) t)

/-! Which turn a step is. -/

/-- An idle instance starts the operation its client asks for. -/
theorem step_asks {s : State} {o : Op} {later : List Op} (h : s.asks o later) :
    step s = startOp o { s with ops := later } := by
  obtain ⟨hc, ha, ho⟩ := h
  rw [step_of_configured hc, turn, ha, ho]

/-- A step inside `RECV_PACKET`. -/
theorem step_packet {s : State} {who : Caller} (h : s.configured) (ha : s.activity = .packet who) :
    step s = packetTurn who s := by
  rw [step_of_configured h, turn, ha]

/-- A step inside a scalar receive. -/
theorem step_scalar {s : State} {width : Scalar} {got : List Byte} (h : s.configured) (ha : s.activity = .scalar width got) :
    step s = .next (scalarTurn width got s) := by
  rw [step_of_configured h, turn, ha]

/-- A turn on a buffer that waits, when the environment answers `Timeout`. -/
theorem packetTurn_timeout {who : Caller} {s : State} (hw : Waiting s.rxbuf)
    (ht : s.timeouts.head? = some true ∨ s.wireIn = []) :
    packetTurn who s = noPacket who { s with pktValid := false, timeouts := s.timeouts.tail } := by
  rw [packetTurn, tryDecode_waiting hw]
  rcases ht with ht | ht
  · cases hl : s.timeouts with
    | nil => simp [hl] at ht
    | cons a l => simp [hl] at ht; subst a; simp [recv]
  · simp [recv_nothing (s := { s with pktValid := false }) ht]

/-- A turn on a buffer that waits, when a byte is delivered. -/
theorem packetTurn_byte {who : Caller} {s : State} {b : Byte} {queue : List Byte} (hw : Waiting s.rxbuf)
    (hb : s.wireIn = b :: queue) (ht : s.timeouts.head? ≠ some true) (hl : s.rxbuf.length < s.straps.rxbufCap) :
    packetTurn who s =
      .next { s with pktValid := false, wireIn := queue, timeouts := s.timeouts.tail, rxbuf := s.rxbuf ++ [b] } := by
  rw [packetTurn, tryDecode_waiting hw]
  simp only
  rw [recv_byte (s := { s with pktValid := false }) hb ht]
  exact appendByte_eq (s := { s with pktValid := false, wireIn := queue, timeouts := s.timeouts.tail }) hl b

/-- A buffer within the bound of the frame always has room (43_transport.md R189). -/
theorem room_of_waiting {s : State} (hc : s.configured) (hw : Waiting s.rxbuf) : s.rxbuf.length < s.straps.rxbufCap := by
  have h1 := waiting_length_le hw
  have h2 : s.straps.wf = true := by
    by_contra hn
    simp [State.configured, configRefusal, hn] at hc
  simp [Straps.wf, Config.maxFrame] at h2
  omega

end Sys2Proof.Machine
end

