-- ==== Sys2Proof/Laws/Start.lean ====
section
/-! SUPPORT. What the start of an operation can do, said once for all operations. -/

namespace Sys2Proof.Machine

open Sys2Proof Host

/-- Where an operation stands after its start: at its end, or at its first `Transport.recv`; in a handshake, with the
HELLO sent and the attempt counted. -/
inductive StartsAt (s t : State) : Prop
  /-- no handshake was begun -/
  | plain (session : t.session = s.session) (attempt : t.attempt = s.attempt) (hsState : t.hsState = s.hsState)
      (hsReason : t.hsReason = s.hsReason)
      (activity : t.activity = .idle ∨ (∃ w, t.activity = .scalar w []) ∨ t.activity = .packet .client ∨
        (t.activity = .packet .devPoll ∧ s.straps.role = .device))
  /-- `HS_ATTEMPT` -/
  | attempted (role : s.straps.role = .host) (session : t.session = s.session) (attempt : t.attempt = s.attempt)
      (hsState : t.hsState = .awaitingResponse)
      (activity : t.activity = .packet (.handshake s.straps.hsRecvAttempts none))
  /-- `HS_ESTABLISH`, its first attempt -/
  | established (r : Retry) (role : s.straps.role = .host) (session : t.session = .none) (attempt : t.attempt = 1)
      (budget : 1 ≤ s.straps.hsMaxAttempts) (seqs : r.seqs.length + 1 = s.straps.hsMaxAttempts)
      (hsState : t.hsState = .awaitingResponse)
      (activity : t.activity = .packet (.handshake s.straps.hsRecvAttempts (some r)))
  /-- `HS_ESTABLISH` with no attempt to make -/
  | noAttempt (role : s.straps.role = .host) (budget : s.straps.hsMaxAttempts = 0) (session : t.session = .failed)
      (attempt : t.attempt = 0) (hsState : t.hsState = s.hsState) (activity : t.activity = .idle)

/-- What the start of an operation can do. -/
structure Starts (o : Op) (s t : State) : Prop where
  straps : t.straps = s.straps
  xerr : t.xerr = s.xerr
  hsLatch : t.hsLatch = s.hsLatch
  peerVersion : t.peerVersion = s.peerVersion
  peerCaps : t.peerCaps = s.peerCaps
  hsErrcode : t.hsErrcode = s.hsErrcode
  peerVer : t.peerVer = s.peerVer
  peerStatus : t.peerStatus = s.peerStatus
  peerId : t.peerId = s.peerId
  ops : t.ops = s.ops
  wireIn : t.wireIn = s.wireIn
  timeouts : t.timeouts = s.timeouts
  draws : t.draws = s.draws
  drawCount : t.drawCount = s.drawCount
  events : ∃ sends, t.events = s.events ++ sends
  wireOut : ∃ out, t.wireOut = s.wireOut ++ out
  appended : ∀ b, o = .rxAppend b → t.rxbuf = s.rxbuf ++ [b] ∧ s.rxbuf.length < s.straps.rxbufCap
  dropped : (∀ b, o ≠ .rxAppend b) → t.rxbuf = s.rxbuf ∨ (Waiting t.rxbuf ∨ t.rxbuf.length + 8 ≤ s.rxbuf.length) ∧
    ∃ gone, s.rxbuf = gone ++ t.rxbuf
  held : t.pktPlen = s.pktPlen ∧ t.pktPayload = s.pktPayload ∨
    ∃ p : List Byte, p.length ≤ Config.maxPayload ∧ t.pktPlen = BitVec.ofNat 8 p.length ∧
      t.pktPayload = p ++ s.pktPayload.drop p.length
  notEstablish : (∀ q c, o ≠ .hsEstablish q c) → t.session = s.session ∧ t.attempt = s.attempt
  standing : StartsAt s t

/-- The bytes a `TRY_DECODE` leaves are the end of those it found: none or a waiting form, or what is behind a frame. -/
theorem scan_suffix (c : Half) (m : List Byte) :
    (Waiting (scan c m).rest ∨ (scan c m).rest.length + 8 ≤ m.length) ∧ ∃ gone, m = gone ++ (scan c m).rest := by
  rcases scan_cases c m with ⟨-, h, h'⟩ | ⟨p, pre, -, -, h, -⟩
  · exact ⟨.inl h, h'⟩
  · refine ⟨.inr ?_, pre ++ frameBytes p.sequence p.command p.payload, by rw [List.append_assoc]; exact h⟩
    have := congrArg List.length h
    simp at this
    omega

theorem tryDecode_starts {s : State} : Starts .tryDecode s (opTryDecode s) := by
  have hs := scan_suffix s.crcReg s.rxbuf
  unfold opTryDecode
  rcases tryDecode_cases s with ⟨-, -, h⟩ | ⟨p, -, hp, h⟩ <;> rw [h]
  · constructor <;> first | rfl | exact ⟨[], by simp⟩ | skip
    · exact fun _ hb => by cases hb
    · exact fun _ => .inr hs
    · exact .inl ⟨rfl, rfl⟩
    · exact fun _ => ⟨rfl, rfl⟩
    · exact .plain rfl rfl rfl rfl (.inl rfl)
  · constructor <;> first | rfl | exact ⟨[], by simp⟩ | skip
    · exact fun _ hb => by cases hb
    · exact fun _ => .inr hs
    · exact .inr ⟨p.payload, hp, rfl, rfl⟩
    · exact fun _ => ⟨rfl, rfl⟩
    · exact .plain rfl rfl rfl rfl (.inl rfl)

/-- An operation that writes at most the checksum, the wire, the activity and the result. -/
theorem starts_of {o : Op} {s t : State} (out : List Byte) (sends : List Event)
    (ht : t = { s with crcReg := t.crcReg, wireOut := s.wireOut ++ out, events := s.events ++ sends
                       activity := t.activity, result := t.result })
    (ho : ∀ b, o ≠ .rxAppend b)
    (ha : t.activity = .idle ∨ (∃ w, t.activity = .scalar w []) ∨ t.activity = .packet .client ∨
        (t.activity = .packet .devPoll ∧ s.straps.role = .device)) : Starts o s t := by
  constructor
  case standing => exact .plain (by rw [ht]) (by rw [ht]) (by rw [ht]) (by rw [ht]) ha
  case wireOut => exact ⟨out, by rw [ht]⟩
  case events => exact ⟨sends, by rw [ht]⟩
  case appended => exact fun b h => absurd h (ho b)
  case dropped => exact fun _ => .inl (by rw [ht])
  case held => exact .inl ⟨by rw [ht], by rw [ht]⟩
  case notEstablish => exact fun _ => ⟨by rw [ht], by rw [ht]⟩
  all_goals rw [ht]

/-- The start of an attempt. -/
theorem beginAttempt_starts {o : Op} {s u : State} (ho : ∀ b, o ≠ .rxAppend b) (seq : Half) (caps : Byte)
    (retry : Option Retry) (hu : u = { s with session := u.session, attempt := u.attempt })
    (hn : (∀ q c, o ≠ .hsEstablish q c) → u.session = s.session ∧ u.attempt = s.attempt)
    (hs : StartsAt s (beginAttempt seq caps retry u)) : Starts o s (beginAttempt seq caps retry u) := by
  rw [beginAttempt_eq] at hs ⊢
  constructor
  case standing => exact hs
  case wireOut => exact ⟨frameBytes seq Cmd.hello (helloPayload u.straps caps), by simp only; rw [hu]⟩
  case events =>
    exact ⟨[.sent (frameBytes seq Cmd.hello (helloPayload u.straps caps)).length], by simp only; rw [hu]⟩
  case appended => exact fun b h => absurd h (ho b)
  case dropped => exact fun _ => .inl (by simp only; rw [hu])
  case held => exact .inl ⟨by simp only; rw [hu], by simp only; rw [hu]⟩
  case notEstablish => exact hn
  all_goals simp only; rw [hu]

/-- The start of every operation. -/
theorem startOp_starts {o : Op} {s t : State} (h : startOp o s = .next t) : Starts o s t := by
  cases o <;> simp only [startOp] at h
  case crcInit => cases h; exact starts_of [] [] (by simp [opCrcInit, finish]) (by simp) (.inl rfl)
  case crcByte => cases h; exact starts_of [] [] (by simp [opCrcByte, finish]) (by simp) (.inl rfl)
  case checksum => cases h; exact starts_of [] [] (by simp [opChecksum, finish]) (by simp) (.inl rfl)
  case encode =>
    cases h
    unfold opEncode
    split <;> exact starts_of [] [] (by simp [finish]) (by simp) (.inl rfl)
  case rxAppend b =>
    unfold opRxAppend at h
    by_cases hl : s.rxbuf.length < s.straps.rxbufCap
    · rw [appendByte_eq hl] at h
      cases h
      constructor <;> first | rfl | exact ⟨[], by simp [finish]⟩ | skip
      · exact fun b' hb => by cases hb; exact ⟨rfl, hl⟩
      · exact fun hb => absurd rfl (hb b)
      · exact .inl ⟨rfl, rfl⟩
      · exact fun _ => ⟨rfl, rfl⟩
      · exact .plain rfl rfl rfl rfl (.inl rfl)
    · rw [appendByte_full hl] at h
      cases h
  case tryDecode => cases h; exact tryDecode_starts
  case sendU8 v => cases h; exact starts_of [v] _ rfl (by simp) (.inl rfl)
  case sendU16 v => cases h; exact starts_of (bytes16 v) _ rfl (by simp) (.inl rfl)
  case sendU32 v => cases h; exact starts_of (bytes32 v) _ rfl (by simp) (.inl rfl)
  case recvU8 => cases h; exact starts_of [] [] (by simp [opRecvScalar]) (by simp) (.inr (.inl ⟨_, rfl⟩))
  case recvU16 => cases h; exact starts_of [] [] (by simp [opRecvScalar]) (by simp) (.inr (.inl ⟨_, rfl⟩))
  case recvU32 => cases h; exact starts_of [] [] (by simp [opRecvScalar]) (by simp) (.inr (.inl ⟨_, rfl⟩))
  case sendPacket seq cmd p =>
    cases h
    unfold opSendPacket
    by_cases hp : p.length ≤ Config.maxPayload
    · rw [encodeFrame_eq hp, sendPacket_eq hp]
      exact starts_of (frameBytes seq cmd p) _ rfl (by simp) (.inl rfl)
    · rw [encodeFrame_tooLong (Nat.lt_of_not_le hp)]
      exact starts_of [] [] (by simp [finish]) (by simp) (.inl rfl)
  case recvPacket => cases h; exact starts_of [] [] (by simp [opRecvPacket]) (by simp) (.inr (.inr (.inl rfl)))
  case hsAttempt seq caps =>
    unfold opHsAttempt at h
    split at h
    · next hr =>
      cases h
      refine beginAttempt_starts (by simp) seq caps none rfl (fun _ => ⟨rfl, rfl⟩) ?_
      rw [beginAttempt_eq]
      exact .attempted hr rfl rfl rfl rfl
    · cases h
  case hsEstablish seqs caps =>
    unfold opHsEstablish at h
    split at h
    · next hr =>
      split at h
      · next hl =>
        unfold establishLoop at h
        split at h
        · next hlt =>
          simp only at h hlt
          split at h
          · next q more =>
            cases h
            refine beginAttempt_starts (by simp) q caps _ rfl (fun hn => absurd rfl (hn _ _)) ?_
            rw [beginAttempt_eq]
            exact .established ⟨more, caps⟩ hr rfl rfl hlt hl rfl rfl
          · cases h
        · next hlt =>
          cases h
          simp only at hlt
          constructor <;> first | rfl | exact ⟨[], by simp [finish]⟩ | skip
          · exact fun _ hb => by cases hb
          · exact fun _ => .inl rfl
          · exact .inl ⟨rfl, rfl⟩
          · exact fun hn => absurd rfl (hn _ _)
          · exact .noAttempt hr (by omega) rfl rfl rfl rfl
      · cases h
    · cases h
  case devPoll =>
    unfold opDevPoll at h
    split at h
    · cases h
    · next hr => cases h; exact starts_of [] [] (by simp) (by simp) (.inr (.inr (.inr ⟨rfl, hr⟩)))
  case readReg r =>
    unfold execReadReg at h
    split at h
    · split at h
      · cases h; exact starts_of [] [] (by simp [finish]) (by simp) (.inl rfl)
      · cases h
    · cases h

end Sys2Proof.Machine
end

