-- ==== Sys2Proof/Laws/Turn.lean ====
section
/-! SUPPORT. What each part of a turn keeps, field by field: one lemma a function, for the proofs over every step. -/

namespace Sys2Proof.Machine

open Sys2Proof Host

/-- `TRY_DECODE` writes the buffer, the scratch register and the holding registers only. -/
theorem tryDecode_fields (s : State) :
    let t := (tryDecode s).2
    t.straps = s.straps ∧ t.xerr = s.xerr ∧ t.hsLatch = s.hsLatch ∧ t.peerVersion = s.peerVersion ∧
      t.peerCaps = s.peerCaps ∧ t.hsState = s.hsState ∧ t.session = s.session ∧ t.attempt = s.attempt ∧
      t.activity = s.activity ∧ t.ops = s.ops ∧ t.wireIn = s.wireIn ∧ t.timeouts = s.timeouts ∧
      t.wireOut = s.wireOut ∧ t.events = s.events ∧ t.rxbuf = (scan s.crcReg s.rxbuf).rest ∧
      t.hsReason = s.hsReason ∧ t.pktValid = (tryDecode s).1.isSome := by
  rcases tryDecode_cases s with ⟨-, -, h⟩ | ⟨p, -, -, h⟩ <;> rw [h] <;> simp

/-- One turn of a scalar receive: it fails on a `Timeout`; with a byte it goes on or ends. -/
theorem scalarTurn_cases (w : Scalar) (got : List Byte) (s : State) :
    scalarTurn w got s = finish .fail (transportError { s with timeouts := s.timeouts.tail }) ∨
      ∃ b queue, s.wireIn = b :: queue ∧
        (got.length + 1 < w.size ∧
            scalarTurn w got s =
              { s with wireIn := queue, timeouts := s.timeouts.tail, activity := .scalar w (got ++ [b]) } ∨
          ¬ got.length + 1 < w.size ∧
            scalarTurn w got s =
              finish (w.value (got ++ [b]))
                (State.setXerr false { s with wireIn := queue, timeouts := s.timeouts.tail })) := by
  unfold scalarTurn
  rcases recv_cases s with h | ⟨b, queue, hw, h⟩ <;> rw [h]
  · exact .inl rfl
  · refine .inr ⟨b, queue, hw, ?_⟩
    simp only
    split
    · next hl => exact .inl ⟨hl, rfl⟩
    · next hl => exact .inr ⟨hl, rfl⟩

/-- What follows an attempt writes the handshake's registers, the session, the activity, the result and the wire. -/
theorem afterAttempt_fields {retry : Option Retry} {s t : State} (h : afterAttempt retry s = .next t) :
    t.straps = s.straps ∧ t.wireIn = s.wireIn ∧ t.rxbuf = s.rxbuf ∧ (∃ sends, t.events = s.events ++ sends) ∧ t.xerr = s.xerr ∧
      t.hsLatch = s.hsLatch ∧ t.peerVersion = s.peerVersion ∧ t.peerCaps = s.peerCaps ∧ t.pktValid = s.pktValid ∧
      t.pktPlen = s.pktPlen ∧ t.pktPayload = s.pktPayload ∧ ∃ out, t.wireOut = s.wireOut ++ out := by
  rcases afterAttempt_cases h with ⟨-, rfl⟩ | ⟨r, -, -, rfl⟩ | ⟨q, more, caps, -, -, -, rfl⟩ | ⟨r, -, -, -, rfl⟩
  · simp
  · simp
  · rw [beginAttempt_eq]; simp
  · simp

/-- What a host does with a Packet writes the outcome of the handshake and the result only. -/
theorem hostReceive_fields (p : Packet) (s : State) :
    ∃ st why code v st' i res,
      hostReceive p s =
        { s with hsState := st, hsReason := why, hsErrcode := code, peerVer := v, peerStatus := st', peerId := i
                 result := res } := by
  unfold hostReceive
  split
  · obtain ⟨st, why, code, v, st', i, -, h, -⟩ := classify_cases p s
    exact ⟨st, why, code, v, st', i, s.result, h⟩
  · exact ⟨s.hsState, s.hsReason, s.hsErrcode, s.peerVer, s.peerStatus, s.peerId, _, rfl⟩

/-- What acting on a Packet keeps, at either side. -/
theorem actOn_fields {p : Packet} {s t : State} (h : actOn p s = .next t) :
    t.straps = s.straps ∧ t.wireIn = s.wireIn ∧ t.rxbuf = s.rxbuf ∧ t.xerr = s.xerr ∧ t.pktValid = s.pktValid ∧
      t.pktPlen = s.pktPlen ∧ t.pktPayload = s.pktPayload ∧ t.session = s.session ∧ t.attempt = s.attempt ∧
      t.activity = s.activity ∧ (∃ calls, t.events = s.events ++ calls) ∧ ∃ out, t.wireOut = s.wireOut ++ out := by
  rcases actOn_cases h with ⟨-, ⟨-, rfl⟩ | ⟨-, rfl⟩⟩
  · obtain ⟨_, _, _, _, _, _, _, h⟩ := hostReceive_fields p s
    rw [h]; simp
  · obtain ⟨_, _, _, _, _, _, _, _, _, h, -⟩ := devPollPacket_handled p s
    rw [h]; simp

/-- What delivering a Packet to its caller keeps. -/
theorem deliver_fields {who : Caller} {p : Packet} {s t : State} (h : deliver who p s = .next t) :
    t.straps = s.straps ∧ t.wireIn = s.wireIn ∧ t.rxbuf = s.rxbuf ∧ t.xerr = false ∧ t.pktValid = s.pktValid ∧
      t.pktPlen = s.pktPlen ∧ t.pktPayload = s.pktPayload ∧ (∃ calls, t.events = s.events ++ calls) ∧
      (∃ out, t.wireOut = s.wireOut ++ out) ∧
      ((∀ l r, who ≠ .handshake l (some r)) → t.session = s.session ∧ t.attempt = s.attempt) := by
  cases who with
  | client =>
    simp only [deliver] at h
    split at h
    · have := actOn_fields h
      simp [received] at this
      simp [this]
    · cases h; simp
  | devPoll =>
    simp only [deliver] at h
    have := actOn_fields h
    simp [received] at this
    simp [this]
  | handshake l r =>
    simp only [deliver] at h
    split at h
    · next u hu =>
      obtain ⟨a1, a2, a3, a4, a5, a6, a7, a8, a9, a10, ⟨o1, a11⟩, ⟨o2, a12⟩⟩ := actOn_fields hu
      obtain ⟨b1, b2, b3, ⟨o4, b4⟩, b5, -, -, -, b9, b10, b11, ⟨o3, b12⟩⟩ := afterAttempt_fields h
      simp [received] at a1 a2 a3 a4 a5 a6 a7 a8 a9 a10 a11 a12
      refine ⟨by rw [b1, a1], by rw [b2, a2], by rw [b3, a3], by rw [b5, a4], by rw [b9, a5], by rw [b10, a6],
        by rw [b11, a7], ⟨o1 ++ o4, by rw [b4, a11]; simp⟩, ⟨o2 ++ o3, by rw [b12, a12]; simp⟩, fun hn => ?_⟩
      cases r with
      | some r => exact absurd rfl (hn _ _)
      | none =>
        simp [afterAttempt, finish] at h
        subst h
        simp [*]
    · cases h
    · cases h

/-- What a `NoPacket` keeps. -/
theorem noPacket_fields {who : Caller} {s t : State} (h : noPacket who s = .next t) :
    t.straps = s.straps ∧ t.wireIn = s.wireIn ∧ t.rxbuf = s.rxbuf ∧ t.xerr = true ∧ t.pktValid = s.pktValid ∧
      t.pktPlen = s.pktPlen ∧ t.pktPayload = s.pktPayload ∧ (∃ sends, t.events = s.events ++ sends) ∧ t.hsLatch = s.hsLatch ∧
      t.peerVersion = s.peerVersion ∧ t.peerCaps = s.peerCaps ∧ (∃ out, t.wireOut = s.wireOut ++ out) ∧
      ((∀ l r, who ≠ .handshake l (some r)) → t.session = s.session ∧ t.attempt = s.attempt) := by
  cases who with
  | client => cases h; simp
  | devPoll => cases h; simp
  | handshake l r =>
    simp only [noPacket, attemptNoPacket] at h
    split at h
    · obtain ⟨b1, b2, b3, ⟨o4, b4⟩, b5, b6, b7, b8, b9, b10, b11, ⟨o3, b12⟩⟩ := afterAttempt_fields h
      simp at b1 b2 b3 b4 b5 b6 b7 b8 b9 b10 b11 b12
      refine ⟨b1, b2, b3, b5, b9, b10, b11, ⟨o4, b4⟩, b6, b7, b8, ⟨o3, b12⟩, fun hn => ?_⟩
      cases r with
      | some r => exact absurd rfl (hn _ _)
      | none =>
        simp [afterAttempt, finish, timedOut] at h
        subst h
        simp [*]
    · cases h; simp

end Sys2Proof.Machine
end

