-- ==== Sys2Proof/Tests/Slice0.lean ====
section
/-! SUPPORT. Tests: expected values from spec/95_test_vectors.md or worked by hand from the rules (each test names its
source), and a witness for the hypotheses of each statement. -/

namespace Sys2Proof.Tests

open Sys2Proof Sys2Proof.Machine Host

/-! States to test on. -/

/-- A device whose gate is open. -/
def dev : State := { State.reset with hsLatch := true }

/-- A host after reset, its other straps as at reset. -/
def host : State := State.resetWith { Straps.atReset with role := .host }

/-- A host that awaits a response. -/
def hostWaits : State := { host with hsState := .awaitingResponse }

/-- The state, its client about to ask for one operation. -/
def asking (o : Op) (s : State) : State := { s with ops := [o] }

/-- The state that answers, or the reset state. -/
def after : Outcome State Fault Refusal → State
  | .next t => t
  | .fault _ => State.reset
  | .refused _ => State.reset

/-- One step with a frame in front of the decoder. -/
def gets (f : List Byte) (s : State) : State := after (step (withFrame f s))

/-- V-E1, the shortest frame. -/
def frameA : List Byte := [0x7E#8, 0x03#8, 0x00#8, 0x00#8, 0x00#8, 0x1C#8, 0x1F#8, 0x7F#8]

/-- V-E3. -/
def frameB : List Byte := [0x7E#8, 0x06#8, 0x34#8, 0x12#8, 0x02#8, 0x05#8, 0x2C#8, 0x01#8, 0x2D#8, 0x6C#8, 0x7F#8]

/-- V-G1: HELLO, version 1. -/
def frameHello : List Byte := [0x7E#8, 0x05#8, 0x01#8, 0x00#8, 0x10#8, 0x01#8, 0x00#8, 0x12#8, 0x97#8, 0x7F#8]

/-- V-H1: the ACK of V-G1. -/
def frameAck : List Byte :=
  [0x7E#8, 0x06#8, 0x01#8, 0x00#8, 0x11#8, 0x01#8, 0x00#8, 0x2A#8, 0x40#8, 0xCA#8, 0x7F#8]

/-- V-H2: NACK. -/
def frameNack : List Byte := [0x7E#8, 0x04#8, 0x01#8, 0x00#8, 0x12#8, 0xA2#8, 0x07#8, 0x1E#8, 0x7F#8]

/-- V-E8's payload. -/
def pulses : List Byte := (List.replicate 18 [0xE8#8, 0x03#8, 0xD0#8, 0x07#8]).flatten

/-- V-D4's reply payload. -/
def calibrations : List Byte :=
  (List.replicate 18 [0x00#8, 0x00#8, 0x7A#8, 0x44#8, 0x00#8, 0x00#8, 0xFA#8, 0x44#8]).flatten

/-! Well-formedness: an ill-formed term for each check. -/

theorem test_wf_payload : (Instr.ack 0#16 (List.replicate 253 0#8)).wf = false := by decide +kernel
theorem test_wf_payload_longest : (Instr.ack 0#16 (List.replicate 252 0#8)).wf = true := by decide +kernel
theorem test_wf_packet : (Packet.mk 0#16 0#8 (List.replicate 253 0#8)).wf = false := by decide +kernel
theorem test_catalogued_length : (Instr.setTargetAngle 0#16 [0#8, 0#8]).catalogued .device = false := by decide
theorem test_wf_max_attempts : ({ Straps.atReset with hsMaxAttempts := 0 } : Straps).wf = false := by decide
theorem test_wf_recv_attempts : ({ Straps.atReset with hsRecvAttempts := 0 } : Straps).wf = false := by decide
theorem test_wf_capacity : ({ Straps.atReset with rxbufCap := 259 } : Straps).wf = false := by decide
theorem test_wf_straps : Straps.atReset.wf = true := by decide
theorem test_wf_establish : Op.wf Straps.atReset (.hsEstablish [1#16, 2#16] 0#8) = false := by decide

/-- V-X7: RAW is refused, whatever the role. -/
theorem test_raw_refused :
    configRefusal { Straps.atReset with role := .host, dispatchVariant := .raw } = some .rawVariant ∧
      configRefusal { Straps.atReset with dispatchVariant := .raw } = some .rawVariant := by decide

/-- The steps refuse what the checks refuse. -/
theorem test_ill_formed_straps :
    step (State.resetWith { Straps.atReset with rxbufCap := 259 }) = .refused .illFormedStraps := rfl
theorem test_ill_formed_establish :
    step (asking (.hsEstablish [1#16, 2#16] 0#8) host) = .refused .illFormedOperand := rfl

/-! The CRC unit (V-S1, V-C2, V-C9, V-C12, V-C14). -/

theorem test_crc_check_value :
    checksum [0x31#8, 0x32#8, 0x33#8, 0x34#8, 0x35#8, 0x36#8, 0x37#8, 0x38#8, 0x39#8] = 0x29B1#16 := by decide
theorem test_crc_empty : checksum [] = 0xFFFF#16 := by decide
theorem test_crc_zero_byte : checksum [0x00#8] = 0xE1F0#16 := by decide
theorem test_crc_residue : checksum [0x03#8, 0x00#8, 0x00#8, 0x00#8, 0x1C#8, 0x1F#8] = 0x6530#16 := by decide
theorem test_crc_flip : checksum [0x12#8, 0x3C#8, 0x56#8] = 0x9B54#16 := by decide
theorem test_crc_serial : crcSerialByte 0xFFFF#16 0x31#8 = 0xC782#16 := by decide
theorem test_crc_byte : crcByte 0xFFFF#16 0x31#8 = 0xC782#16 := by decide

/-! The encoder (V-E1 to V-E9). -/

theorem test_encode_shortest : encodeFrame 0#16 0#8 [] = some frameA := by decide
theorem test_encode_seq_low_first : encodeFrame 0x1234#16 0x02#8 [0x05#8, 0x2C#8, 0x01#8] = some frameB := by decide
theorem test_encode_markers : encodeFrame 0xFFFF#16 0xFF#8 [0x7E#8, 0x7F#8] =
    some [0x7E#8, 0x05#8, 0xFF#8, 0xFF#8, 0xFF#8, 0x7E#8, 0x7F#8, 0x50#8, 0x37#8, 0x7F#8] := by decide
theorem test_encode_too_long : encodeFrame 0#16 0#8 (List.replicate 253 0#8) = none := by decide +kernel

/-! Decoding: each constructor's frame, written out from the frame layout and the vectors. -/

/-- V-E8. -/
theorem test_decode_set_angle_calibrations :
    decode .device ([0x7E#8, 0x4B#8, 0x07#8, 0x00#8, 0x01#8] ++ pulses ++ [0x39#8, 0x17#8, 0x7F#8]) =
      .instr (.setAngleCalibrations 7#16 pulses) [] := by decide +kernel

/-- V-D2. -/
theorem test_decode_set_target_angle :
    decode .device frameB = .instr (.setTargetAngle 0x1234#16 [0x05#8, 0x2C#8, 0x01#8]) [] := by decide

/-- V-D3, with a byte behind it. -/
theorem test_decode_set_power_relay :
    decode .device [0x7E#8, 0x04#8, 0x02#8, 0x00#8, 0x03#8, 0x01#8, 0x10#8, 0x30#8, 0x7F#8, 0x55#8] =
      .instr (.setPowerRelay 2#16 [0x01#8]) [0x55#8] := by decide

/-- V-D4. -/
theorem test_decode_get_angle_calibrations :
    decode .device [0x7E#8, 0x03#8, 0x06#8, 0x00#8, 0x04#8, 0x38#8, 0xED#8, 0x7F#8] =
      .instr (.getAngleCalibrations 6#16 []) [] := by decide

/-- V-D4's reply. -/
theorem test_decode_get_angle_calibrations_reply :
    decode .host ([0x7E#8, 0x93#8, 0x06#8, 0x00#8, 0x04#8] ++ calibrations ++ [0x12#8, 0x92#8, 0x7F#8]) =
      .instr (.getAngleCalibrationsReply 6#16 calibrations) [] := by decide +kernel

/-- V-D5. -/
theorem test_decode_get_current :
    decode .device [0x7E#8, 0x03#8, 0x03#8, 0x00#8, 0x05#8, 0xE9#8, 0x16#8, 0x7F#8] =
      .instr (.getCurrent 3#16 []) [] := by decide

/-- V-D5's reply. -/
theorem test_decode_get_current_reply :
    decode .host [0x7E#8, 0x07#8, 0x03#8, 0x00#8, 0x05#8, 0x00#8, 0x00#8, 0xC0#8, 0x3F#8, 0x1B#8, 0xDC#8, 0x7F#8] =
      .instr (.getCurrentReply 3#16 [0x00#8, 0x00#8, 0xC0#8, 0x3F#8]) [] := by decide

/-- V-D6. -/
theorem test_decode_get_voltage :
    decode .device [0x7E#8, 0x03#8, 0x04#8, 0x00#8, 0x06#8, 0x1A#8, 0xA3#8, 0x7F#8] =
      .instr (.getVoltage 4#16 []) [] := by decide

/-- V-D6's reply. -/
theorem test_decode_get_voltage_reply :
    decode .host [0x7E#8, 0x07#8, 0x04#8, 0x00#8, 0x06#8, 0x00#8, 0x00#8, 0x40#8, 0x41#8, 0x4C#8, 0xAF#8, 0x7F#8] =
      .instr (.getVoltageReply 4#16 [0x00#8, 0x00#8, 0x40#8, 0x41#8]) [] := by decide

/-- V-D7. -/
theorem test_decode_get_sensor :
    decode .device [0x7E#8, 0x04#8, 0x05#8, 0x00#8, 0x07#8, 0x09#8, 0xF1#8, 0x2C#8, 0x7F#8] =
      .instr (.getSensor 5#16 [0x09#8]) [] := by decide

/-- V-D7's reply. -/
theorem test_decode_get_sensor_reply :
    decode .host [0x7E#8, 0x07#8, 0x05#8, 0x00#8, 0x07#8, 0xDB#8, 0x0F#8, 0x49#8, 0x40#8, 0xE8#8, 0x8D#8, 0x7F#8] =
      .instr (.getSensorReply 5#16 [0xDB#8, 0x0F#8, 0x49#8, 0x40#8]) [] := by decide

/-- V-E2. -/
theorem test_decode_hello : decode .device frameHello = .instr (.hello 1#16 [0x01#8, 0x00#8]) [] := by decide

/-- V-H1. -/
theorem test_decode_ack : decode .host frameAck = .instr (.ack 1#16 [0x01#8, 0x00#8, 0x2A#8]) [] := by decide

/-- V-H2. -/
theorem test_decode_nack : decode .host frameNack = .instr (.nack 1#16 [0xA2#8]) [] := by decide

/-- V-D8: an unassigned code is no instruction. -/
theorem test_decode_unassigned :
    decode .device [0x7E#8, 0x03#8, 0x09#8, 0x00#8, 0x08#8, 0x85#8, 0x00#8, 0x7F#8] =
      .rejected (.unassigned 0x08#8) := by decide

/-- V-R10, V-R11, V-R0g: the trailer, the checksum, the length. -/
theorem test_decode_bad_trailer :
    decode .device [0x7E#8, 0x03#8, 0x00#8, 0x00#8, 0x00#8, 0x1C#8, 0x1F#8, 0x7E#8] =
      .rejected (.frame .badTrailer) := by decide
theorem test_decode_bad_checksum :
    decode .device [0x7E#8, 0x03#8, 0x00#8, 0x00#8, 0x00#8, 0x1D#8, 0x1F#8, 0x7F#8] =
      .rejected (.frame .badChecksum) := by decide
theorem test_decode_bad_length :
    decode .device (0x7E#8 :: List.replicate 7 0x00#8) = .rejected (.frame .badLength) := by decide

/-! The opcode table's words. -/

theorem test_table_word_hello : decodeTableWord 8 0x10 = some (.hello 0#16 [0#8, 0#8]) := by decide
theorem test_table_word_get_current : decodeTableWord 8 0x05 = some (.getCurrent 0#16 []) := by decide
theorem test_table_word_unassigned : decodeTableWord 8 0x08 = none := by decide
theorem test_fetch_word_runs :
    (after (step (State.reset.withFetchWord 8 0x10))).wireOut = frameBytes 0#16 0x12#8 [0xA2#8] := by decide

/-! The stream decoder (V-R3, V-R4c, V-R5, V-R6). -/

theorem test_scan_stall : scan 0#16 ([0x7E#8, 0xFF#8] ++ frameA) = ⟨none, [0x7E#8, 0xFF#8] ++ frameA, 0#16⟩ := by decide
theorem test_scan_stall_ends :
    scan 0#16 ([0x7E#8, 0x10#8] ++ frameA ++ List.replicate 11 0#8) =
      ⟨some ⟨0#16, 0#8, []⟩, List.replicate 11 0#8, 0x1F1C#16⟩ := by decide
theorem test_scan_short_len :
    scan 0#16 ([0x7E#8, 0x02#8] ++ frameA) = ⟨some ⟨0#16, 0#8, []⟩, [], 0x1F1C#16⟩ := by decide
theorem test_scan_first_of_two : scan 0#16 (frameA ++ frameB) = ⟨some ⟨0#16, 0#8, []⟩, frameB, 0x1F1C#16⟩ := by decide

/-! The scalars (V-T3, V-T7). -/

theorem test_send_u32 :
    (after (step (asking (.sendU32 0x3F800000#32) host))).wireOut = [0x00#8, 0x00#8, 0x80#8, 0x3F#8] := by decide
theorem test_recv_u16_loses_its_byte :
    (fun t : State => (t.result, t.xerr, t.wireIn)) (after (run 3 { asking .recvU16 dev with wireIn := [0x2C#8] })) =
      (.fail, true, []) := by decide

/-! The instructions, one step each (V-D, V-G, V-H). -/

/-- V-D1. -/
theorem test_set_angle_calibrations :
    (after (exec (.setAngleCalibrations 7#16 pulses) dev)).events =
      ((List.range 18).map fun c => .setCalibration c 1000#16 2000#16) ++ [.sent 11] := by decide
theorem test_set_angle_calibrations_ack :
    (after (exec (.setAngleCalibrations 7#16 pulses) dev)).wireOut =
      [0x7E#8, 0x06#8, 0x07#8, 0x00#8, 0x11#8, 0x01#8, 0x00#8, 0x2A#8, 0xA1#8, 0x47#8, 0x7F#8] := by decide

/-- V-D2. -/
theorem test_set_target_angle :
    (fun t : State => (t.events, t.wireOut)) (gets frameB dev) = ([.setTarget 5#8 0x012C#16], []) := by decide

/-- V-D2b, V-D2c: the last channel, and the first that is none. -/
theorem test_set_target_angle_range :
    (after (exec (.setTargetAngle 8#16 [0x11#8, 0xFF#8, 0xFF#8]) dev)).events = [.setTarget 17#8 0xFFFF#16] ∧
      (after (exec (.setTargetAngle 8#16 [0x12#8, 0x00#8, 0x00#8]) dev)).events = [] := by decide

/-- V-D3b. -/
theorem test_set_power_relay_false : (after (exec (.setPowerRelay 2#16 [0x00#8]) dev)).events = [.relaySet false] := by
  decide

/-- V-D3e: the acknowledgement, and none for the value 2. -/
theorem test_set_power_relay_ack :
    (fun s : State => ((after (exec (.setPowerRelay 2#16 [0x01#8]) s)).wireOut,
        (after (exec (.setPowerRelay 2#16 [0x02#8]) s)).wireOut))
      { dev with straps := { Straps.atReset with ackSetCommands := true } } =
      ([0x7E#8, 0x06#8, 0x02#8, 0x00#8, 0x11#8, 0x01#8, 0x00#8, 0x2A#8, 0xA0#8, 0x04#8, 0x7F#8], []) := by decide

/-- V-D4. -/
theorem test_get_angle_calibrations :
    (after (exec (.getAngleCalibrations 6#16 [])
      { dev with draws := (List.replicate 18 [0x447A0000#32, 0x44FA0000#32]).flatten })).wireOut =
      [0x7E#8, 0x93#8, 0x06#8, 0x00#8, 0x04#8] ++ calibrations ++ [0x12#8, 0x92#8, 0x7F#8] := by decide +kernel

/-- V-D5. -/
theorem test_get_current :
    (gets [0x7E#8, 0x03#8, 0x03#8, 0x00#8, 0x05#8, 0xE9#8, 0x16#8, 0x7F#8] { dev with draws := [0x3FC00000#32] }).wireOut =
      [0x7E#8, 0x07#8, 0x03#8, 0x00#8, 0x05#8, 0x00#8, 0x00#8, 0xC0#8, 0x3F#8, 0x1B#8, 0xDC#8, 0x7F#8] := by decide

/-- V-D6. -/
theorem test_get_voltage :
    (after (exec (.getVoltage 4#16 []) { dev with draws := [0x41400000#32] })).wireOut =
      [0x7E#8, 0x07#8, 0x04#8, 0x00#8, 0x06#8, 0x00#8, 0x00#8, 0x40#8, 0x41#8, 0x4C#8, 0xAF#8, 0x7F#8] := by decide

/-- V-D7b: the channel is not range-checked. -/
theorem test_get_sensor :
    (fun t : State => (t.events, t.wireOut))
      (after (exec (.getSensor 13#16 [0xC8#8]) { dev with draws := [0x7FC00001#32] })) =
      ([.sensorRead 200#8, .sent 12],
        [0x7E#8, 0x07#8, 0x0D#8, 0x00#8, 0x07#8, 0x01#8, 0x00#8, 0xC0#8, 0x7F#8, 0x60#8, 0x94#8, 0x7F#8]) := by decide

/-- V-G1. -/
theorem test_hello_accepted :
    (fun t : State => (t.hsLatch, t.peerVersion, t.wireOut)) (gets frameHello State.reset) =
      (true, 0x01#8, frameAck) := by decide

/-- V-G9: a mismatch with the gate open leaves it open. -/
theorem test_hello_mismatch :
    (fun t : State => (t.hsLatch, t.peerVersion, t.wireOut)) (after (exec (.hello 1#16 [0x02#8, 0x00#8]) dev)) =
      (true, 0x02#8, frameNack) := by decide

/-- V-H9: the version is tested first. -/
theorem test_ack_version_first :
    (fun t : State => (t.hsState, t.hsReason, t.peerStatus)) (after (exec (.ack 1#16 [0x02#8, 0x01#8, 0x2A#8]) hostWaits)) =
      (.rejected, .ackVersion, 0x01#8) := by decide

/-- V-H10. -/
theorem test_ack_accepted :
    (fun t : State => (t.hsState, t.hsReason, t.peerId))
      (after (exec (.ack 1#16 [0x01#8, 0x00#8, 0x2A#8, 0x55#8]) hostWaits)) = (.accepted, .none, 0x2A#8) := by decide

/-- V-H5. -/
theorem test_nack :
    (fun t : State => (t.hsState, t.hsReason, t.hsErrcode)) (after (exec (.nack 1#16 [0xA2#8, 0x00#8]) hostWaits)) =
      (.rejected, .nackCode, 0xA2#8) := by decide

/-- V-H11 (44_handshake.md R213), and P1 step 6. -/
theorem test_get_current_reply_at_a_host :
    (after (exec (.getCurrentReply 1#16 [0x00#8, 0x00#8, 0xC0#8, 0x3F#8]) hostWaits)).hsReason = .unexpectedCmd ∧
      (after (exec (.getCurrentReply 3#16 [0x00#8, 0x00#8, 0xC0#8, 0x3F#8]) host)).result =
        .packet ⟨3#16, 0x05#8, [0x00#8, 0x00#8, 0xC0#8, 0x3F#8]⟩ := by decide

/-- V-G7, V-G8: the closed gate. -/
theorem test_closed_gate :
    exec (.setPowerRelay 2#16 [0x01#8]) State.reset = .next State.reset ∧
      exec (.getCurrent 3#16 []) State.reset = .next State.reset := ⟨rfl, rfl⟩

/-! Witnesses: for each statement with hypotheses, concrete values that meet them, at the bounds of each clause. -/

/-- An instance that is idle and asks for an operation, of either role: the hypothesis of `CrcUnitOperations`,
`ScalarSendsPutBytesLowFirst` and of every statement about the start of an operation. -/
theorem test_meets_asks (o : Op) : (asking o dev).asks o [] ∧ (asking o host).asks o [] :=
  ⟨⟨rfl, rfl, rfl⟩, rfl, rfl, rfl⟩

/-- `BitSerialFormGivesTheSameRegister`: the taps 0, 5 and 12 invert their bit, bit 15 does not (40_crc.md R123). -/
theorem test_meets_serial_taps :
    [0, 5, 12, 15].map (crcSerialBit 0x5810#16 true).getLsbD = [true, false, false, true] := by
  decide +kernel

/-- `ChecksumIsIncrementalAndAffine` (V-C14). -/
theorem test_meets_affine :
    [0x12#8, 0x34#8, 0x56#8].length = [0x00#8, 0x08#8, 0x00#8].length ∧
      checksum [0x12#8, 0x34#8, 0x56#8] ^^^ [0x00#8, 0x08#8, 0x00#8].foldl crcByte 0x0000#16 = 0x9B54#16 := by
    decide +kernel

/-- `SingleBitChangeChangesChecksum`: the last bit of a message. -/
theorem test_meets_single_bit : 23 < 8 * [0x12#8, 0x34#8, 0x56#8].length := by decide

/-- `FrameHasTheLayoutOfTheTable`, `EncodeAndSendPacketOperations`: the longest payload and the first that is too long. -/
theorem test_meets_payload_bounds :
    (List.replicate 252 0#8 : List Byte).length ≤ 252 ∧ 252 < (List.replicate 253 0#8 : List Byte).length := by
  rw [List.length_replicate, List.length_replicate]; decide

/-- `TryDecodeReturnsTheEncodedPacket`. -/
theorem test_meets_try_decode :
    ({ asking .tryDecode dev with rxbuf := frameB } : State).asks .tryDecode [] ∧
      encodeFrame 0x1234#16 0x02#8 [0x05#8, 0x2C#8, 0x01#8] = some frameB := ⟨⟨rfl, rfl, rfl⟩, by decide⟩

/-- `BufferAfterTryDecode`: both results. -/
theorem test_meets_buffer_after :
    (tryDecode { dev with rxbuf := frameA.take 7 }).1 = none ∧
      (tryDecode { dev with rxbuf := frameA }).1 = some ⟨0#16, 0#8, []⟩ := by decide

/-- `ResyncExactlyWhenGarbageIsHarmless`: V-R1 (no STX), V-R5 (a harmless one), V-R4 (a stall) and V-R6 (a frame in the
garbage), each in front of frame A or B. -/
theorem test_meets_resync :
    encodeFrame 0#16 0#8 [] = some frameA ∧ (∀ b ∈ [0x00#8, 0x7F#8, 0x55#8], b ≠ 0x7E#8) ∧
      harmless ([0x7E#8, 0x02#8] ++ frameA) 0 ∧ harmless ([0x7E#8, 0x02#8] ++ frameA) 1 ∧
      ¬ harmless ([0x7E#8] ++ frameA) 0 ∧ ¬ harmless (frameA ++ frameB) 0 := by
  refine ⟨by decide, by decide, ?_⟩
  unfold harmless
  decide

/-- `SingleBitFlipOutsideLenIsRejected`: the first and last bit of each clause, on frame B. -/
theorem test_meets_flip :
    (16 ≤ 16 ∧ 16 < 8 * (3 + 7)) ∧ (16 ≤ 79 ∧ 79 < 8 * (3 + 7)) ∧ 7 < 8 ∧
      (8 * (3 + 7) ≤ 80 ∧ 87 < 8 * (3 + 8)) ∧ frameBytes 0x1234#16 0x02#8 [0x05#8, 0x2C#8, 0x01#8] = frameB := by decide

/-- `PartialFrameIsNotConsumed`: nothing, 7 bytes, 8 bytes, all but one, and all of frame B. -/
theorem test_meets_partial (k : Nat) (_ : k ∈ [0, 7, 8, 10, 11]) :
    ({ dev with rxbuf := frameB.take k } : State).rxbuf =
      (frameBytes 0x1234#16 0x02#8 [0x05#8, 0x2C#8, 0x01#8]).take k ∧ k ≤ 3 + 8 := by
  have : frameBytes 0x1234#16 0x02#8 [0x05#8, 0x2C#8, 0x01#8] = frameB := by decide
  exact ⟨by rw [this], by simp at *; omega⟩

/-- `BackToBackFramesDecodeInOrder` (V-R8). -/
theorem test_meets_back_to_back :
    encodeFrame 0#16 0#8 [] = some frameA ∧
      encodeFrame 0x1234#16 0x02#8 [0x05#8, 0x2C#8, 0x01#8] = some frameB := by decide

/-- `RxAppendAddsOneByteOrIsRefused`: the last free place, and a full buffer. -/
theorem test_meets_rx_append :
    (∀ n, ({ asking (.rxAppend 7#8) dev with rxbuf := List.replicate n 0#8 } : State).asks (.rxAppend 7#8) []) ∧
      (List.replicate 259 0#8 : List Byte).length < dev.straps.rxbufCap ∧
      ¬ (List.replicate 260 0#8 : List Byte).length < dev.straps.rxbufCap := by
  refine ⟨fun n => ⟨rfl, rfl, rfl⟩, ?_, ?_⟩ <;> rw [List.length_replicate] <;> decide

/-- `BufferChangesAtItsEndsOnly`, `StrapsStayAndOutputsAreNotRecalled`, `OnlyReceivesWriteXerr`: a step that takes a
byte, and one that writes `XERR`. -/
theorem test_meets_step :
    (∃ t, step { host with activity := .packet .client, wireIn := [7#8] } = .next t ∧ t.rxbuf = [7#8]) ∧
      ∃ t, step { host with activity := .packet .client } = .next t ∧ t.xerr ≠ host.xerr :=
  ⟨⟨_, rfl, rfl⟩, _, rfl, by decide⟩

/-- `ScalarReceivesAssembleOrFail`: each width, and a `Timeout` after the last byte but one, by the environment's answer
and by an empty wire. -/
theorem test_meets_scalar_receives :
    (∀ o bytes answers, ({ asking o dev with wireIn := bytes, timeouts := answers } : State).asks o []) ∧
      (∀ a ∈ ([false, false, false, false, true] : List Bool).take 4, a = false) ∧
      (∀ a ∈ ([false, false, false, true] : List Bool).take [0x01#8, 0x02#8, 0x03#8].length, a = false) ∧
      (([false, false, false, true] : List Bool).drop [0x01#8, 0x02#8, 0x03#8].length).head? = some true ∧
      (Op.recvU32, 4) ∈ [(Op.recvU8, 1), (.recvU16, 2), (.recvU32, 4)] ∧ [0x01#8, 0x02#8, 0x03#8].length < 4 :=
  ⟨fun _ _ _ => ⟨rfl, rfl, rfl⟩, by decide⟩

/-- `RecvPacketLoop`, `DevPollFollowsTheRoutingTable` (with `test_meets_asks`): a Packet, a `Timeout`, a byte, the last
whoever runs the `RECV_PACKET`. -/
theorem test_meets_recv_packet_loop :
    host.configured ∧ host.hsState ≠ .awaitingResponse ∧
      (∃ t, tryDecode { host with rxbuf := frameA } = (some ⟨0#16, 0#8, []⟩, t)) ∧
      (∃ t u, tryDecode host = (none, t) ∧ recv t = (.timeout, u)) ∧
      (∀ who, ({ host with wireIn := [7#8], activity := .packet who } : State).configured ∧
        ∃ t u, tryDecode { host with wireIn := [7#8], activity := .packet who } = (none, t) ∧
          recv t = (.byte 7#8, u)) ∧
      ({ dev with activity := .packet .devPoll } : State).configured ∧
      ∃ t, tryDecode { dev with activity := .packet .devPoll, rxbuf := frameHello } =
        (some ⟨1#16, 0x10#8, [0x01#8, 0x00#8]⟩, t) :=
  ⟨rfl, by decide, ⟨_, rfl⟩, ⟨_, _, rfl, rfl⟩, fun _ => ⟨rfl, _, _, rfl, rfl⟩, rfl, _, rfl⟩

/-- `RecvPacketTakesAFrameByteByByte`. -/
theorem test_meets_recv_packet_frame (who : Caller) :
    let s : State := { host with activity := .packet who, wireIn := frameBytes 0#16 0#8 [] ++ [0x55#8] }
    s.configured ∧ s.activity = .packet who ∧ s.rxbuf = [] ∧ s.delivers := ⟨rfl, rfl, rfl, rfl⟩

/-- `BufferBoundUnderRecvPacket`: 260 bytes inside `RECV_PACKET`, 259 outside it, and a step that ends in each way. -/
theorem test_meets_buffer_bound :
    ({ host with activity := .packet .client, rxbuf := (0x7E#8 :: 0xFF#8 :: List.replicate 257 0#8) ++ [0#8] } :
        State).bufferBound ∧
      ({ host with rxbuf := List.replicate 259 0#8 } : State).bufferBound ∧
      ({ host with activity := .packet .client } : State).bufferBound ∧
      ({ host with activity := .packet .client } : State).feedsByRecv ∧
      (∃ t, step { host with activity := .packet .client } = .next t ∧ t.activity = .idle ∧ t.pktValid = false) ∧
      ∃ t, step { host with activity := .packet .client, rxbuf := frameA } = .next t ∧ t.pktValid = true := by
  refine ⟨.inr ⟨_, _, rfl, .inr ⟨rfl, .inr ⟨by decide, ?_⟩⟩⟩, ?_, .inl (by decide), (fun h => nomatch h),
    ⟨_, rfl, rfl, rfl⟩, _, rfl, rfl⟩
  · rw [List.length_cons, List.length_cons, List.length_replicate]; decide
  · show (List.replicate 259 0#8 : List Byte).length ≤ 259
    rw [List.length_replicate]

/-- `HsAttemptSendsHello`, `OperationOfTheOtherRoleIsRefused`: the two roles, and a list for `HS_ESTABLISH` (with
`test_meets_asks`). -/
theorem test_meets_roles :
    host.straps.role = .host ∧ dev.straps.role = .device ∧ [2#16, 3#16].length + 1 = host.straps.hsMaxAttempts :=
  ⟨rfl, rfl, rfl⟩

/-- `HostClassifiesTheResponse`: a host that awaits; an ACK of 2 bytes; a Packet that is neither ACK nor NACK; one
outside the catalogue. -/
theorem test_meets_awaits :
    hostWaits.awaits ∧ [0x01#8, 0x00#8].length < 3 ∧ (Instr.hello 1#16 []).toPacket.command ≠ 0x11#8 ∧
      (Instr.hello 1#16 []).toPacket.command ≠ 0x12#8 ∧ Instr.ofPacket .host ⟨1#16, 0x13#8, []⟩ = none :=
  ⟨⟨⟨rfl, rfl⟩, rfl⟩, by decide⟩

/-- `AttemptWithoutResponse`: a pass that discards a byte, one with nothing to discard, and a `Timeout` against a queued
byte; two receives left, one left, the next attempt, the last attempt. -/
theorem test_meets_no_response :
    (∀ left retry n,
      let s : State := { hostWaits with activity := .packet (.handshake left retry), attempt := n }
      s.configured ∧ s.activity = .packet (.handshake left retry) ∧
        (∃ t u, tryDecode { s with rxbuf := [0x55#8] } = (none, t) ∧ t.rxbuf = [] ∧ recv t = (.timeout, u)) ∧
        (∃ t u, tryDecode s = (none, t) ∧ recv t = (.timeout, u)) ∧
        ∃ t u, tryDecode { s with wireIn := [7#8], timeouts := [true] } = (none, t) ∧ recv t = (.timeout, u)) ∧
      2 ≤ 2 ∧ 1 ≤ 1 ∧ 2 < hostWaits.straps.hsMaxAttempts ∧ 3 = hostWaits.straps.hsMaxAttempts :=
  ⟨fun _ _ _ => ⟨rfl, rfl, ⟨_, _, rfl, rfl, rfl⟩, ⟨_, _, rfl, rfl⟩, _, _, rfl, rfl⟩, by decide⟩

/-- `SilentLineFailsAfterTheAttemptBudget` (P3). -/
theorem test_meets_silent_line :
    (asking (.hsEstablish [1#16, 2#16, 3#16] 0#8) host).asks (.hsEstablish [1#16, 2#16, 3#16] 0#8) [] ∧
      host.straps.role = .host ∧ [1#16, 2#16, 3#16].length = host.straps.hsMaxAttempts ∧ Waiting host.rxbuf ∧
      host.wireIn = [] := ⟨⟨rfl, rfl, rfl⟩, rfl, rfl, .inl rfl, rfl⟩

/-- A host inside `HS_ESTABLISH`, its first attempt's response in `RXBUF`. -/
def answered (f : List Byte) : State :=
  { hostWaits with rxbuf := f, attempt := 1, activity := .packet (.handshake 1 (some ⟨[2#16, 3#16], 0#8⟩)) }

theorem test_inv_answered : (answered frameAck).Inv where
  rxbuf := by decide
  plen := by decide
  payload := List.length_replicate
  attempt := by decide
  awaiting := ⟨fun _ => rfl, fun _ => rfl⟩
  activity := ⟨rfl, by decide, by decide, fun r h => by cases h; rfl⟩

/-- `EstablishedMeansAccepted` (P1 step 3). -/
theorem test_meets_established :
    (answered frameAck).Inv ∧ (answered frameAck).session ≠ .established ∧
      ∃ t, step (answered frameAck) = .next t ∧ t.session = .established :=
  ⟨test_inv_answered, by decide, _, rfl, rfl⟩

/-- `HostHandsThePacketToItsClient`; the premises of the dispatcher's statements; RAW. -/
theorem test_meets_units :
    host.hostAtRest ∧ dev.gateOpen ∧ State.reset.gateClosed ∧ dev.framedDevice ∧
      ({ Straps.atReset with dispatchVariant := .raw } : Straps).wf = true :=
  ⟨⟨⟨rfl, rfl⟩, by decide⟩, ⟨rfl, rfl, rfl⟩, ⟨rfl, rfl, rfl⟩, ⟨rfl, rfl⟩, by decide⟩

/-- `ClosedGateDropsEveryCommandButHello`. -/
theorem test_meets_closed_gate :
    (∀ seq p, Instr.ack 0#16 [] ≠ .hello seq p) ∧ (Packet.mk 0#16 0x11#8 []).command ≠ 0x10#8 :=
  ⟨fun _ _ h => (nomatch h), by decide⟩

/-- `LatchOpensByAMatchingHelloOnly` (V-G1), at a poll that has the HELLO. -/
theorem test_meets_latch :
    State.reset.hsLatch = false ∧
      ∃ t, step (withFrame frameHello State.reset) = .next t ∧ t.hsLatch = true ∧
        t.peerVersion ≠ State.reset.peerVersion := ⟨rfl, _, rfl, rfl, by decide⟩

/-- `SetAngleCalibrations`, `SetTargetAngle`, `SetPowerRelay`, `PayloadLengthPolicy`: the bounds of their clauses. -/
theorem test_meets_operands :
    (pulses.take 71).length < 72 ∧ 72 ≤ pulses.length ∧ [5#8, 0x2C#8].length < 3 ∧ (17#8 : Byte).toNat < 18 ∧
      18 ≤ (18#8 : Byte).toNat ∧ 2 ≤ (2#8 : Byte).toNat ∧ ([] : List Byte).length < 1 := by decide

/-- `DeviceIgnoresAckNackAndUnassignedCodes`: codes on both sides of the catalogue's ranges. -/
theorem test_meets_unassigned :
    [0x00#8, 0x08#8, 0x0F#8, 0x13#8, 0xFF#8].map (fun c => Instr.ofPacket .device ⟨0#16, c, []⟩) =
      List.replicate 5 none := by decide

/-- `InstructionFrameAtADevice`, `InstructionFrameAtAHost`: an instruction that is no HELLO and draws nothing; a host at
rest and one that awaits. -/
theorem test_meets_frames :
    (∃ t, exec (.setPowerRelay 2#16 [0x01#8]) dev = .next t) ∧
      (Instr.setPowerRelay 2#16 [0x01#8]).toPacket.command.toNat < 4 ∧
      7 < (Instr.hello 2#16 []).toPacket.command.toNat ∧ (∃ t, exec (.ack 1#16 []) host = .next t) ∧
      (∃ t, exec (.ack 1#16 []) hostWaits = .next t) ∧ (Instr.ack 1#16 []).toPacket.command ≠ 0x12#8 :=
  ⟨⟨_, rfl⟩, by decide, by decide, ⟨_, rfl⟩, ⟨_, rfl⟩, by decide⟩

/-- `OnlyEstablishWritesSessionAndAttempt`: the start of `HS_ESTABLISH`. -/
theorem test_meets_attempt :
    ∃ t, step (asking (.hsEstablish [1#16, 2#16, 3#16] 0#8) host) = .next t ∧ t.attempt ≠ host.attempt :=
  ⟨_, rfl, by decide⟩

/-- `EveryStepKeepsTheInvariant`, `OperationInProgressNeverStops`. -/
theorem test_meets_invariant :
    (answered frameAck).Inv ∧ (answered frameAck).configured ∧ (answered frameAck).activity ≠ .idle ∧
      ∃ t, step (answered frameAck) = .next t := ⟨test_inv_answered, rfl, by decide, _, rfl⟩

/-- `IdleBlockDoesNothing`. -/
theorem test_meets_idle : State.reset.configured ∧ State.reset.activity = .idle ∧ State.reset.ops = [] := ⟨rfl, rfl, rfl⟩

/-- `RegisterReads`: each role; `PKT_VALID` 0 and 1; `HS_REASON` `NACK_CODE` and another; a row of each list (with
`test_meets_asks`). -/
theorem test_meets_register_reads :
    dev.straps.role = .device ∧ host.straps.role = .host ∧ dev.pktValid = false ∧
      (tryDecode { dev with rxbuf := frameB }).2.pktValid = true ∧ host.hsReason ≠ .nackCode ∧
      (after (exec (.nack 1#16 [0xA2#8]) hostWaits)).hsReason = .nackCode ∧
      (Reg.xerr, RegValue.bit dev.xerr) ∈ [(Reg.pktValid, RegValue.bit dev.pktValid), (.xerr, .bit dev.xerr)] ∧
      Reg.pktPayload ∈ [Reg.pktSeq, .pktCmd, .pktPlen, .pktPayload] ∧ Reg.peerCaps ∈ [Reg.peerVersion, .peerCaps] := by
  decide

/-- P1's end state, and P2's `HS_ERRCODE`: registers read by the client. -/
theorem test_register_reads :
    (after (step (asking (.readReg .pktPayload) (tryDecode { dev with rxbuf := frameB }).2))).result =
        .register (.bytes [0x05#8, 0x2C#8, 0x01#8]) ∧
      (after (step (asking (.readReg .hsErrcode) (after (exec (.nack 1#16 [0xA2#8]) hostWaits))))).result =
        .register (.byte 0xA2#8) := by decide

/-- `PollStepRunsTheDecodedInstruction`. -/
theorem test_meets_poll_step :
    (withFrame frameHello State.reset).configured ∧
      (withFrame frameHello State.reset).activity = .packet .devPoll ∧
      decode .device (withFrame frameHello State.reset).rxbuf = .instr (.hello 1#16 [0x01#8, 0x00#8]) [] :=
  ⟨rfl, rfl, by decide⟩

/-- `HostStepRunsTheDecodedInstruction`: the client's receive, an attempt alone, the retry loop after `Accepted`, after
`Rejected` with an attempt left, and after the last. -/
theorem test_meets_host_step :
    (withFrame frameAck host).configured ∧ (withFrame frameAck host).activity = .packet .client ∧
      decode .host frameAck = .instr (.ack 1#16 [0x01#8, 0x00#8, 0x2A#8]) [] ∧
      decode .host frameNack = .instr (.nack 1#16 [0xA2#8]) [] ∧
      (after (exec (.ack 1#16 [0x01#8, 0x00#8, 0x2A#8]) (received (tryDecode (answered frameAck)).2))).hsState =
        .accepted ∧
      (after (exec (.nack 1#16 [0xA2#8]) (received (tryDecode (answered frameNack)).2))).hsState ≠ .accepted ∧
      (answered frameNack).attempt < (answered frameNack).straps.hsMaxAttempts ∧
      ({ answered frameNack with attempt := 3 } : State).attempt = (answered frameNack).straps.hsMaxAttempts :=
  ⟨rfl, rfl, by decide⟩

/-- `SidesShareNothingButTheWire`: the host's HELLO is queued for the device. -/
theorem test_meets_link_step :
    ∃ m, Link.turn ⟨asking (.hsAttempt 1#16 0#8) host, State.reset⟩ (.step .host) = .next m ∧
      m.device.wireIn = frameHello := ⟨_, rfl, rfl⟩

/-- `HandshakeOverTheLink`: equal versions, and different ones. -/
theorem test_meets_link (version : Byte) :
    let l : Link :=
      ⟨asking (.hsAttempt 1#16 0#8) (State.resetWith { host.straps with protocolVersion := version }),
        asking .devPoll State.reset⟩
    l.host.straps.role = .host ∧ l.device.straps.role = .device ∧ l.host.asks (.hsAttempt 1#16 0#8) [] ∧
      l.device.asks .devPoll [] ∧ l.host.rxbuf = [] ∧ l.device.rxbuf = [] ∧ l.host.wireIn = [] ∧
      l.device.wireIn = [] ∧ l.host.wireOut = [] ∧ l.device.wireOut = [] ∧ l.host.delivers ∧ l.device.delivers ∧
      l.host.straps.protocolVersion = version ∧ l.device.straps.protocolVersion = 0x01#8 :=
  ⟨rfl, rfl, ⟨rfl, rfl, rfl⟩, ⟨rfl, rfl, rfl⟩, rfl, rfl, rfl, rfl, rfl, rfl, rfl, rfl, rfl, rfl⟩

end Sys2Proof.Tests
end

section
/-! The operations of one role at an instance of the other (00_scope.md R3). -/

namespace Sys2Proof.Machine

open Sys2Proof Host

theorem opHsAttempt_of_device (s : State) (hrole : s.straps.role = .device) (seq : Half) (caps : Byte) :
    opHsAttempt seq caps s = .refused .wrongRole := by
  rw [opHsAttempt, hrole]

theorem opHsEstablish_of_device (s : State) (hrole : s.straps.role = .device) (seqs : List Half) (caps : Byte) :
    opHsEstablish seqs caps s = .refused .wrongRole := by
  rw [opHsEstablish, hrole]

theorem opDevPoll_of_host (s : State) (hrole : s.straps.role = .host) : opDevPoll s = .refused .wrongRole := by
  rw [opDevPoll, hrole]

/-- Settles O22: the step starts the operation asked for, and the start of each of the three looks at the role first. -/
theorem operationOfTheOtherRoleIsRefused : Obligations.OperationOfTheOtherRoleIsRefused := by
  intro s later
  refine ⟨fun seq caps hasks hrole => ?attempt, fun seqs caps hasks hrole => ?establish, fun hasks hrole => ?poll⟩
  case attempt => exact (step_asks hasks).trans (opHsAttempt_of_device { s with ops := later } hrole seq caps)
  case establish => exact (step_asks hasks).trans (opHsEstablish_of_device { s with ops := later } hrole seqs caps)
  case poll => exact (step_asks hasks).trans (opDevPoll_of_host { s with ops := later } hrole)

end Sys2Proof.Machine
end

section
/-! What one turn can do with a Packet or with its absence, taken apart once (43_transport.md R187, 44_handshake.md
R212, R215). -/

namespace Sys2Proof.Machine

open Sys2Proof Host

/-- `TRY_DECODE` writes `RXBUF`, `CRC_REG` and the holding registers; all else is as it was (42_stream_decoder.md
R151). -/
theorem tryDecode_eq_with {s u : State} {r : Option Packet} (h : tryDecode s = (r, u)) :
    ∃ buf crc valid seq cmd plen payload,
      u = { s with rxbuf := buf, crcReg := crc, pktValid := valid, pktSeq := seq, pktCmd := cmd, pktPlen := plen
                   pktPayload := payload } := by
  rcases tryDecode_cases s with ⟨-, -, hd⟩ | ⟨p, -, -, hd⟩ <;> cases hd.symm.trans h
  · exact ⟨_, _, _, s.pktSeq, s.pktCmd, s.pktPlen, s.pktPayload, rfl⟩
  · exact ⟨_, _, _, _, _, _, _, rfl⟩

/-- A Packet is acted on, and an attempt then goes on from its outcome; or a device's client is handed the Packet. -/
theorem deliver_cases {who : Caller} {p : Packet} {s t : State} (h : deliver who p s = .next t) :
    ((Activity.packet who).inHandshake = false ∧ actOn p (received s) = .next t) ∨
      (∃ left retry u, who = .handshake left retry ∧ actOn p (received s) = .next u ∧ afterAttempt retry u = .next t) ∨
      who = .client ∧ s.straps.role = .device ∧ t = finish (.packet p) (s.setXerr false) := by
  cases who with
  | client =>
    simp only [deliver] at h
    split at h
    · exact .inl ⟨rfl, h⟩
    · next hrole => cases h; exact .inr (.inr ⟨rfl, hrole, rfl⟩)
  | devPoll => exact .inl ⟨rfl, h⟩
  | handshake left retry =>
    simp only [deliver] at h
    split at h
    · next u hu => exact .inr (.inl ⟨left, retry, u, rfl, hu, h⟩)
    · cases h
    · cases h

/-- No Packet ends the operation, or uses up one receive of an attempt, which then ends or tries again. -/
theorem noPacket_cases {who : Caller} {s t : State} (h : noPacket who s = .next t) :
    ((Activity.packet who).inHandshake = false ∧ ∃ r, t = finish r (transportError s)) ∨
      (∃ left retry, who = .handshake left retry ∧ afterAttempt retry (timedOut (transportError s)) = .next t) ∨
      ∃ left retry, who = .handshake left retry ∧ 1 < left ∧
        t = { transportError s with activity := .packet (.handshake (left - 1) retry) } := by
  cases who with
  | client => cases h; exact .inl ⟨rfl, _, rfl⟩
  | devPoll => cases h; exact .inl ⟨rfl, _, rfl⟩
  | handshake left retry =>
    simp only [noPacket, attemptNoPacket] at h
    split at h
    · exact .inr (.inl ⟨left, retry, rfl, h⟩)
    · next hl => cases h; exact .inr (.inr ⟨left, retry, rfl, by omega, rfl⟩)

/-- An operation that starts takes nothing from the wire, and keeps all it sent and called. -/
theorem startOp_outputs {o : Op} {s t : State} (h : startOp o s = .next t) :
    t.straps = s.straps ∧ (∃ out, t.wireOut = s.wireOut ++ out) ∧ (∃ calls, t.events = s.events ++ calls) ∧
      t.wireIn = s.wireIn :=
  have hs := startOp_starts h
  ⟨hs.straps, hs.wireOut, hs.events, hs.wireIn⟩

end Sys2Proof.Machine
end

section
/-! What every step leaves as it was (10_state.md R29, R32, R33, R34). -/

namespace Sys2Proof.Machine

open Sys2Proof Host

/-- A scalar receive takes at most the oldest byte and writes none of the straps, the outputs and the handshake's
registers (43_transport.md R183). -/
theorem scalarTurn_eq_with (w : Scalar) (got : List Byte) (s : State) :
    ∃ queue error act res,
      scalarTurn w got s =
        { s with wireIn := queue, timeouts := s.timeouts.tail, xerr := error, activity := act, result := res } ∧
      (∃ taken, s.wireIn = taken ++ queue ∧ taken.length ≤ 1) := by
  rcases scalarTurn_cases w got s with h | ⟨b, queue, hw, ⟨-, h⟩ | ⟨-, h⟩⟩ <;> rw [h]
  · exact ⟨_, _, _, _, rfl, [], rfl, by simp⟩
  · exact ⟨_, _, _, _, rfl, [b], hw, by simp⟩
  · exact ⟨_, _, _, _, rfl, [b], hw, by simp⟩

/-- One turn of `RECV_PACKET` keeps the straps, what was sent and what was called, and takes at most the oldest byte
(20_memory.md R57, R58). -/
theorem packetTurn_outputs {who : Caller} {s t : State} (h : packetTurn who s = .next t) :
    t.straps = s.straps ∧ (∃ out, t.wireOut = s.wireOut ++ out) ∧ (∃ calls, t.events = s.events ++ calls) ∧
      ∃ taken, s.wireIn = taken ++ t.wireIn ∧ taken.length ≤ 1 := by
  rcases packetTurn_cases h with ⟨p, u, hd, h⟩ | ⟨u, hd, h⟩ | ⟨u, b, queue, hd, hw, -, rfl⟩ <;>
    obtain ⟨_, _, _, _, _, _, _, rfl⟩ := tryDecode_eq_with hd
  · obtain ⟨hstraps, hwire, -, -, -, -, -, hcalls, hout, -⟩ := deliver_fields h
    exact ⟨hstraps, hout, hcalls, [], hwire.symm, by simp⟩
  · obtain ⟨hstraps, hwire, -, -, -, -, -, hcalls, -, -, -, hout, -⟩ := noPacket_fields h
    exact ⟨hstraps, hout, hcalls, [], hwire.symm, by simp⟩
  · exact ⟨rfl, ⟨[], by simp⟩, ⟨[], by simp⟩, [b], hw, by simp⟩

/-- Outside `HS_ESTABLISH` a turn of `RECV_PACKET` writes neither `SESSION` nor `ATTEMPT`. -/
theorem packetTurn_session_attempt {who : Caller} {s t : State} (hwho : ∀ left r, who ≠ .handshake left (some r))
    (h : packetTurn who s = .next t) : t.session = s.session ∧ t.attempt = s.attempt := by
  rcases packetTurn_cases h with ⟨p, u, hd, h⟩ | ⟨u, hd, h⟩ | ⟨u, b, queue, hd, -, -, rfl⟩ <;>
    obtain ⟨_, _, _, _, _, _, _, rfl⟩ := tryDecode_eq_with hd
  · obtain ⟨-, -, -, -, -, -, -, -, -, hkept⟩ := deliver_fields h
    exact hkept hwho
  · obtain ⟨-, -, -, -, -, -, -, -, -, -, -, -, hkept⟩ := noPacket_fields h
    exact hkept hwho
  · exact ⟨rfl, rfl⟩

/-- Settles O47: each kind of turn keeps the straps and the outputs, and at most one `Transport.recv` is in it. -/
theorem strapsStayAndOutputsAreNotRecalled : Obligations.StrapsStayAndOutputsAreNotRecalled := by
  intro s t h
  obtain ⟨-, ⟨-, -, rfl⟩ | ⟨o, later, -, -, hstart⟩ | ⟨w, got, -, rfl⟩ | ⟨who, -, hturn⟩⟩ := step_cases h
  · exact ⟨rfl, ⟨[], by simp⟩, ⟨[], by simp⟩, [], rfl, by simp⟩
  · obtain ⟨hstraps, hout, hcalls, hwire⟩ := startOp_outputs hstart
    exact ⟨hstraps, hout, hcalls, [], hwire.symm, by simp⟩
  · obtain ⟨_, _, _, _, heq, htaken⟩ := scalarTurn_eq_with w got s
    rw [heq]
    exact ⟨rfl, ⟨[], by simp⟩, ⟨[], by simp⟩, htaken⟩
  · exact packetTurn_outputs hturn

/-- Settles O48: an idle turn and the start of an operation keep `XERR`; the two turns left are the receives. -/
theorem onlyReceivesWriteXerr : Obligations.OnlyReceivesWriteXerr := by
  intro s t h hne
  obtain ⟨-, ⟨-, -, rfl⟩ | ⟨o, later, -, -, hstart⟩ | ⟨w, got, ha, -⟩ | ⟨who, ha, -⟩⟩ := step_cases h
  · exact absurd rfl hne
  · exact absurd (startOp_starts hstart).xerr hne
  · exact .inl ⟨w, got, ha⟩
  · exact .inr ⟨who, ha⟩

/-- Settles O49: every other start, and every turn outside `HS_ESTABLISH`, keeps both registers. -/
theorem onlyEstablishWritesSessionAndAttempt : Obligations.OnlyEstablishWritesSessionAndAttempt := by
  intro s t h hne
  by_contra hno
  obtain ⟨hstart_ne, hwho_ne⟩ := not_or.mp hno
  have hkept : t.session = s.session ∧ t.attempt = s.attempt := by
    obtain ⟨-, ⟨-, -, rfl⟩ | ⟨o, later, ha, ho, hstart⟩ | ⟨w, got, -, rfl⟩ | ⟨who, ha, hturn⟩⟩ := step_cases h
    · exact ⟨rfl, rfl⟩
    · exact (startOp_starts hstart).notEstablish fun q c hq => hstart_ne ⟨q, c, later, ha, hq ▸ ho⟩
    · obtain ⟨_, _, _, _, heq, -⟩ := scalarTurn_eq_with w got s
      exact ⟨by rw [heq], by rw [heq]⟩
    · exact packetTurn_session_attempt (fun left r hwho => hwho_ne ⟨left, r, hwho ▸ ha⟩) hturn
  exact hne.elim (absurd hkept.1) (absurd hkept.2)

end Sys2Proof.Machine
end

section
/-! The gate latch and the two registers of the peer (10_state.md R25, R26, 44_handshake.md R217). -/

namespace Sys2Proof.Machine

open Sys2Proof Host

/-- `HS_LATCH`, `PEER_VERSION` and `PEER_CAPS` are as they were. -/
def SamePeer (s t : State) : Prop :=
  t.hsLatch = s.hsLatch ∧ t.peerVersion = s.peerVersion ∧ t.peerCaps = s.peerCaps

/-- What the Packet `p` may do to `HS_LATCH`, `PEER_VERSION` and `PEER_CAPS`. -/
structure PeerEffect (p : Packet) (s t : State) : Prop where
  keeps : s.hsLatch = true → t.hsLatch = true
  opens : s.hsLatch = false → t.hsLatch = true →
    s.straps.role = .device ∧ p.command = Cmd.hello ∧ helloVersion p.payload = some s.straps.protocolVersion
  records : t.peerVersion ≠ s.peerVersion ∨ t.peerCaps ≠ s.peerCaps → s.straps.role = .device ∧ p.command = Cmd.hello

theorem SamePeer.not_opened {s t : State} (h : SamePeer s t) (hs : s.hsLatch = false) : ¬ t.hsLatch = true := by
  simp [h.1, hs]

theorem SamePeer.not_recorded {s t : State} (h : SamePeer s t) :
    ¬ (t.peerVersion ≠ s.peerVersion ∨ t.peerCaps ≠ s.peerCaps) := by
  simp [h.2]

theorem SamePeer.peerEffect {s t : State} (h : SamePeer s t) (p : Packet) : PeerEffect p s t :=
  ⟨h.1.trans, fun hs ht => absurd ht (h.not_opened hs), fun hne => absurd hne h.not_recorded⟩

theorem PeerEffect.trans_samePeer {p : Packet} {s t u : State} (h : PeerEffect p s t) (h' : SamePeer t u) :
    PeerEffect p s u := by
  obtain ⟨hlatch, hversion, hcaps⟩ := h'
  exact ⟨hlatch ▸ h.keeps, hlatch ▸ h.opens, hversion ▸ hcaps ▸ h.records⟩

theorem Handled.peerEffect {p : Packet} {s t : State} (hrole : s.straps.role = .device) (h : Handled p s t) :
    PeerEffect p s t := by
  obtain ⟨_, _, latch, version, caps, _, _, _, _, rfl, -, -, hkeeps, hopens, hother, -⟩ := h
  refine ⟨hkeeps, fun hs ht => ⟨hrole, hopens hs ht⟩, fun hne => ⟨hrole, ?_⟩⟩
  by_contra hcmd
  obtain ⟨-, hversion, hcaps⟩ := hother hcmd
  exact hne.elim (absurd hversion) (absurd hcaps)

theorem hostReceive_samePeer (p : Packet) (s : State) : SamePeer s (hostReceive p s) := by
  obtain ⟨_, _, _, _, _, _, _, h⟩ := hostReceive_fields p s
  rw [h]
  exact ⟨rfl, rfl, rfl⟩

theorem actOn_peerEffect {p : Packet} {s t : State} (h : actOn p s = .next t) : PeerEffect p s t := by
  obtain ⟨-, ⟨-, rfl⟩ | ⟨hrole, rfl⟩⟩ := actOn_cases h
  · exact (hostReceive_samePeer p s).peerEffect p
  · exact (devPollPacket_handled p s).peerEffect hrole

theorem afterAttempt_samePeer {retry : Option Retry} {s t : State} (h : afterAttempt retry s = .next t) :
    SamePeer s t := by
  obtain ⟨-, -, -, -, -, hlatch, hversion, hcaps, -⟩ := afterAttempt_fields h
  exact ⟨hlatch, hversion, hcaps⟩

theorem deliver_peerEffect {who : Caller} {p : Packet} {s t : State} (h : deliver who p s = .next t) :
    PeerEffect p s t := by
  have hact {u : State} (hu : actOn p (received s) = .next u) : PeerEffect p s u :=
    have hp := actOn_peerEffect hu
    ⟨hp.keeps, hp.opens, hp.records⟩
  obtain ⟨-, hu⟩ | ⟨_, _, u, -, hu, hafter⟩ | ⟨-, -, rfl⟩ := deliver_cases h
  · exact hact hu
  · exact (hact hu).trans_samePeer (afterAttempt_samePeer hafter)
  · have hsame : SamePeer s (finish (.packet p) (s.setXerr false)) := ⟨rfl, rfl, rfl⟩
    exact hsame.peerEffect p

theorem noPacket_samePeer {who : Caller} {s t : State} (h : noPacket who s = .next t) : SamePeer s t := by
  obtain ⟨-, -, -, -, -, -, -, -, hlatch, hversion, hcaps, -⟩ := noPacket_fields h
  exact ⟨hlatch, hversion, hcaps⟩

/-- A step leaves the three registers as they were, or it decoded a Packet that had its effect on them. -/
theorem step_peerEffect {s t : State} (h : step s = .next t) :
    SamePeer s t ∨ ∃ p, (tryDecode s).1 = some p ∧ PeerEffect p s t := by
  obtain ⟨-, ⟨-, -, rfl⟩ | ⟨o, later, -, -, hstart⟩ | ⟨w, got, -, rfl⟩ | ⟨who, -, hturn⟩⟩ := step_cases h
  · exact .inl ⟨rfl, rfl, rfl⟩
  · have hs := startOp_starts hstart
    exact .inl ⟨hs.hsLatch, hs.peerVersion, hs.peerCaps⟩
  · obtain ⟨_, _, _, _, heq, -⟩ := scalarTurn_eq_with w got s
    rw [heq]
    exact .inl ⟨rfl, rfl, rfl⟩
  · rcases packetTurn_cases hturn with ⟨p, u, hd, hdeliver⟩ | ⟨u, hd, hnone⟩ | ⟨u, b, queue, hd, -, -, rfl⟩ <;>
      obtain ⟨_, _, _, _, _, _, _, rfl⟩ := tryDecode_eq_with hd
    · have hp := deliver_peerEffect hdeliver
      exact .inr ⟨p, by rw [hd], hp.keeps, hp.opens, hp.records⟩
    · have hsame := noPacket_samePeer hnone
      exact .inl hsame
    · exact .inl ⟨rfl, rfl, rfl⟩

/-- Settles O30: a step that changes one of the three registers has decoded a Packet, and only a device's HELLO handler
writes them. -/
theorem latchOpensByAMatchingHelloOnly : Obligations.LatchOpensByAMatchingHelloOnly := by
  intro s t h
  obtain hsame | ⟨p, hd, hp⟩ := step_peerEffect h
  · exact ⟨hsame.1.trans, fun hs ht => absurd ht (hsame.not_opened hs), fun hne => absurd hne hsame.not_recorded⟩
  · refine ⟨hp.keeps, fun hs ht => ?opens, fun hne => ?records⟩
    case opens =>
      obtain ⟨hrole, hcmd, hver⟩ := hp.opens hs ht
      exact ⟨hrole, p, hd, hcmd, List.head?_eq_getElem?.trans hver⟩
    case records =>
      obtain ⟨hrole, hcmd⟩ := hp.records hne
      exact ⟨hrole, p, hd, hcmd⟩

end Sys2Proof.Machine
end

section
/-! The invariant of a run (10_state.md R38), in two parts: what the receive buffer and the holding registers keep, and
what the handshake and the operation in progress keep. -/

namespace Sys2Proof.Machine

open Sys2Proof Host

/-- The clauses of the invariant on `RXBUF`, `PKT_PLEN` and `PKT_PAYLOAD`. -/
structure State.Buffered (s : State) : Prop where
  rxbuf : Memory.wf s.straps.rxbufCap s.rxbuf = true
  plen : s.pktPlen.toNat ≤ Config.maxPayload
  payload : s.pktPayload.length = Config.maxPayload

/-- The clauses of the invariant on `ATTEMPT`, `HS_STATE` and the operation in progress. -/
structure State.InOrder (s : State) : Prop where
  attempt : s.attempt ≤ s.straps.hsMaxAttempts
  awaiting : s.hsState = .awaitingResponse ↔ s.activity.inHandshake = true
  activity : s.activity.ok s

theorem State.inv_iff (s : State) : s.Inv ↔ s.Buffered ∧ s.InOrder :=
  ⟨fun ⟨a, b, c, d, e, f⟩ => ⟨⟨a, b, c⟩, d, e, f⟩, fun ⟨⟨a, b, c⟩, d, e, f⟩ => ⟨a, b, c, d, e, f⟩⟩

/-! The buffer and the holding registers. -/

/-- The holding registers keep what they held or take a payload that the frame can carry. -/
theorem State.Buffered.of_held {s t : State} (hs : s.Buffered) (hbuf : Memory.wf t.straps.rxbufCap t.rxbuf = true)
    (held : t.pktPlen = s.pktPlen ∧ t.pktPayload = s.pktPayload ∨
      ∃ p : List Byte, p.length ≤ Config.maxPayload ∧ t.pktPlen = BitVec.ofNat 8 p.length ∧
        t.pktPayload = p ++ s.pktPayload.drop p.length) : t.Buffered := by
  obtain ⟨hplen, hpayload⟩ | ⟨p, hp, hplen, hpayload⟩ := held
  · exact ⟨hbuf, hplen ▸ hs.plen, hpayload ▸ hs.payload⟩
  · refine ⟨hbuf, ?_, ?_⟩
    · rw [hplen, BitVec.toNat_ofNat]
      omega
    · rw [hpayload, List.length_append, List.length_drop, hs.payload]
      omega

theorem State.Buffered.of_eq {s t : State} (hs : s.Buffered) (hstraps : t.straps = s.straps) (hbuf : t.rxbuf = s.rxbuf)
    (hplen : t.pktPlen = s.pktPlen) (hpayload : t.pktPayload = s.pktPayload) : t.Buffered :=
  hs.of_held (by rw [hstraps, hbuf]; exact hs.rxbuf) (.inl ⟨hplen, hpayload⟩)

theorem Starts.rxbuf_wf {o : Op} {s t : State} (h : Starts o s t) (hs : Memory.wf s.straps.rxbufCap s.rxbuf = true) :
    Memory.wf t.straps.rxbufCap t.rxbuf = true := by
  rw [Memory.wf_iff] at hs ⊢
  rw [h.straps]
  by_cases ho : ∃ b, o = .rxAppend b
  · obtain ⟨b, hb⟩ := ho
    obtain ⟨heq, hroom⟩ := h.appended b hb
    rw [heq, List.length_append, List.length_singleton]
    omega
  · obtain heq | ⟨-, gone, heq⟩ := h.dropped fun b hb => ho ⟨b, hb⟩
    · rw [heq]; exact hs
    · rw [heq, List.length_append] at hs; omega

theorem tryDecode_buffered {s u : State} {r : Option Packet} (hs : s.Buffered) (h : tryDecode s = (r, u)) :
    u.Buffered := by
  have hbuf := Memory.scan_wf hs.rxbuf s.crcReg
  rcases tryDecode_cases s with ⟨-, -, hd⟩ | ⟨p, -, hp, hd⟩ <;> cases hd.symm.trans h
  · exact hs.of_held hbuf (.inl ⟨rfl, rfl⟩)
  · exact hs.of_held hbuf (.inr ⟨p.payload, hp, rfl, rfl⟩)

theorem packetTurn_buffered {who : Caller} {s t : State} (hs : s.Buffered) (h : packetTurn who s = .next t) :
    t.Buffered := by
  rcases packetTurn_cases h with ⟨p, u, hd, h⟩ | ⟨u, hd, h⟩ | ⟨u, b, queue, hd, -, hroom, rfl⟩
  · obtain ⟨hstraps, -, hbuf, -, -, hplen, hpayload, -⟩ := deliver_fields h
    exact (tryDecode_buffered hs hd).of_eq hstraps hbuf hplen hpayload
  · obtain ⟨hstraps, -, hbuf, -, -, hplen, hpayload, -⟩ := noPacket_fields h
    exact (tryDecode_buffered hs hd).of_eq hstraps hbuf hplen hpayload
  · refine (tryDecode_buffered hs hd).of_held ?_ (.inl ⟨rfl, rfl⟩)
    rw [Memory.wf_iff, List.length_append, List.length_singleton]
    exact hroom

theorem step_buffered {s t : State} (hs : s.Buffered) (h : step s = .next t) : t.Buffered := by
  obtain ⟨-, ⟨-, -, rfl⟩ | ⟨o, later, -, -, hstart⟩ | ⟨w, got, -, rfl⟩ | ⟨who, -, hturn⟩⟩ := step_cases h
  · exact hs
  · have hst := startOp_starts hstart
    exact hs.of_held (hst.rxbuf_wf hs.rxbuf) hst.held
  · obtain ⟨_, _, _, _, heq, -⟩ := scalarTurn_eq_with w got s
    rw [heq]
    exact hs.of_eq rfl rfl rfl rfl
  · exact packetTurn_buffered hs hturn

/-! The handshake and the operation in progress. -/

theorem State.configured.straps_wf {s : State} (h : s.configured) : s.straps.wf = true := by
  by_contra hn
  simp [State.configured, configRefusal, hn] at h

theorem State.configured.one_le_hsRecvAttempts {s : State} (h : s.configured) : 1 ≤ s.straps.hsRecvAttempts := by
  obtain ⟨⟨-, hrecv⟩, -⟩ : (1 ≤ s.straps.hsMaxAttempts ∧ 1 ≤ s.straps.hsRecvAttempts) ∧ _ := by
    simpa [Straps.wf] using h.straps_wf
  exact hrecv

theorem Activity.ok_congr {s t : State} (a : Activity) (hstraps : t.straps = s.straps) (hattempt : t.attempt = s.attempt) :
    a.ok t ↔ a.ok s := by
  match a with
  | .idle => exact Iff.rfl
  | .scalar _ _ => exact Iff.rfl
  | .packet .client => exact Iff.rfl
  | .packet .devPoll => simp only [Activity.ok, hstraps]
  | .packet (.handshake _ _) => simp only [Activity.ok, hstraps, hattempt]

theorem State.InOrder.congr {s t : State} (hs : s.InOrder) (hstraps : t.straps = s.straps)
    (hattempt : t.attempt = s.attempt) (hstate : t.hsState = s.hsState) (hact : t.activity = s.activity) : t.InOrder :=
  ⟨by rw [hattempt, hstraps]; exact hs.attempt, by rw [hstate, hact]; exact hs.awaiting,
    by rw [hact, Activity.ok_congr _ hstraps hattempt]; exact hs.activity⟩

theorem State.InOrder.not_awaiting {s : State} (hs : s.InOrder) (hact : s.activity.inHandshake = false) :
    s.hsState ≠ .awaitingResponse := by
  rw [Ne, hs.awaiting, hact]
  exact Bool.false_ne_true

/-- An operation other than an attempt, with its own clause, while no response is awaited. -/
theorem State.InOrder.of_plain {s : State} (hattempt : s.attempt ≤ s.straps.hsMaxAttempts)
    (hstate : s.hsState ≠ .awaitingResponse) (hact : s.activity.inHandshake = false) (hok : s.activity.ok s) :
    s.InOrder :=
  ⟨hattempt, by simp [hstate, hact], hok⟩

theorem State.InOrder.of_idle {s : State} (hattempt : s.attempt ≤ s.straps.hsMaxAttempts)
    (hstate : s.hsState ≠ .awaitingResponse) (hact : s.activity = .idle) : s.InOrder :=
  .of_plain hattempt hstate (by rw [hact]; rfl) (by rw [hact]; trivial)

/-- An attempt in progress. -/
theorem State.InOrder.of_handshake {s : State} {left : Nat} {retry : Option Retry}
    (hattempt : s.attempt ≤ s.straps.hsMaxAttempts) (hstate : s.hsState = .awaitingResponse)
    (hact : s.activity = .packet (.handshake left retry)) (hok : (Activity.packet (.handshake left retry)).ok s) :
    s.InOrder :=
  ⟨hattempt, by simp [hstate, hact, Activity.inHandshake], hact ▸ hok⟩

theorem Starts.inOrder {o : Op} {s t : State} (h : Starts o s t) (hrecv : 1 ≤ s.straps.hsRecvAttempts)
    (hattempt : s.attempt ≤ s.straps.hsMaxAttempts) (hstate : s.hsState ≠ .awaitingResponse) : t.InOrder := by
  have hstraps := h.straps
  cases h.standing with
  | plain _ ha hst _ hact =>
    have hle : t.attempt ≤ t.straps.hsMaxAttempts := by rw [ha, hstraps]; exact hattempt
    have hne : t.hsState ≠ .awaitingResponse := hst ▸ hstate
    obtain hact | ⟨w, hact⟩ | hact | ⟨hact, hrole⟩ := hact
    · exact .of_idle hle hne hact
    · exact .of_plain hle hne (by rw [hact]; rfl) (by rw [hact]; cases w <;> exact Nat.zero_lt_succ _)
    · exact .of_plain hle hne (by rw [hact]; rfl) (by rw [hact]; trivial)
    · have hrole : t.straps.role = .device := by rw [hstraps]; exact hrole
      exact .of_plain hle hne (by rw [hact]; rfl) (by rw [hact]; exact hrole)
  | attempted hrole _ ha hst hact =>
    refine .of_handshake (by rw [ha, hstraps]; exact hattempt) hst hact ?_
    exact ⟨hstraps ▸ hrole, hrecv, (congrArg Straps.hsRecvAttempts hstraps).ge, by simp⟩
  | established r hrole _ ha hmax hseqs hst hact =>
    refine .of_handshake (by rw [ha, hstraps]; exact hmax) hst hact ?_
    refine ⟨hstraps ▸ hrole, hrecv, (congrArg Straps.hsRecvAttempts hstraps).ge, fun r' hr => ?_⟩
    cases hr
    rw [ha, hstraps]
    exact hseqs
  | noAttempt _ _ _ ha hst hact => exact .of_idle (by omega) (hst ▸ hstate) hact

theorem scalarTurn_inOrder {w : Scalar} {got : List Byte} {s : State} (hs : s.InOrder)
    (ha : s.activity = .scalar w got) : (scalarTurn w got s).InOrder := by
  have hne : s.hsState ≠ .awaitingResponse := hs.not_awaiting (by rw [ha]; rfl)
  rcases scalarTurn_cases w got s with h | ⟨b, queue, -, ⟨hl, h⟩ | ⟨-, h⟩⟩ <;> rw [h]
  · exact .of_idle hs.attempt hne rfl
  · exact .of_plain hs.attempt hne rfl (by simpa [Activity.ok] using hl)
  · exact .of_idle hs.attempt hne rfl

/-- A Packet that is acted on ends the wait for a response, if there was one (44_handshake.md R213). -/
theorem actOn_not_awaiting {p : Packet} {s t : State} (h : actOn p s = .next t)
    (hs : s.straps.role = .host ∨ s.hsState ≠ .awaitingResponse) : t.hsState ≠ .awaitingResponse := by
  obtain ⟨-, ⟨-, rfl⟩ | ⟨hrole, rfl⟩⟩ := actOn_cases h
  · by_cases hst : s.hsState = .awaitingResponse
    · obtain ⟨_, _, _, _, _, _, hout, heq, -⟩ := classify_cases p s
      rw [hostReceive_awaiting hst, heq]
      obtain rfl | rfl := hout <;> simp
    · rw [hostReceive_idle hst]
      exact hst
  · obtain ⟨_, _, _, _, _, _, _, _, _, heq, -⟩ := devPollPacket_handled p s
    rw [heq]
    exact hs.resolve_left (by simp [hrole])

/-- What follows an attempt that has its outcome: its end, or the next attempt with one sequence number less. -/
theorem afterAttempt_inOrder {left : Nat} {retry : Option Retry} {s t : State} (h : afterAttempt retry s = .next t)
    (hattempt : s.attempt ≤ s.straps.hsMaxAttempts) (hrecv : 1 ≤ s.straps.hsRecvAttempts)
    (hok : (Activity.packet (.handshake left retry)).ok s) (hstate : s.hsState ≠ .awaitingResponse) : t.InOrder := by
  obtain ⟨hrole, -, -, hseqs⟩ := hok
  rcases afterAttempt_cases h with ⟨-, rfl⟩ | ⟨_, -, -, rfl⟩ | ⟨q, more, caps, hr, -, hlt, rfl⟩ | ⟨_, -, -, -, rfl⟩
  · exact .of_idle hattempt hstate rfl
  · exact .of_idle hattempt hstate rfl
  · rw [beginAttempt_eq]
    refine .of_handshake hlt rfl rfl ⟨hrole, hrecv, le_rfl, fun r hr' => ?_⟩
    cases hr'
    have hcount := hseqs _ hr
    simp only [List.length_cons] at hcount ⊢
    omega
  · exact .of_idle hattempt hstate rfl

theorem deliver_inOrder {who : Caller} {p : Packet} {s t : State} (h : deliver who p s = .next t) (hs : s.InOrder)
    (hact : s.activity = .packet who) (hrecv : 1 ≤ s.straps.hsRecvAttempts) : t.InOrder := by
  have hok := hact ▸ hs.activity
  obtain ⟨hno, hu⟩ | ⟨left, retry, u, rfl, hu, hafter⟩ | ⟨rfl, -, rfl⟩ := deliver_cases h
  · have hne : s.hsState ≠ .awaitingResponse := hs.not_awaiting (by rw [hact]; exact hno)
    obtain ⟨hstraps, -, -, -, -, -, -, -, ha, hidle, -⟩ := actOn_fields hu
    exact .of_idle (by rw [ha, hstraps]; exact hs.attempt) (actOn_not_awaiting hu (.inr hne)) hidle
  · obtain ⟨hstraps, -, -, -, -, -, -, -, ha, -⟩ := actOn_fields hu
    refine afterAttempt_inOrder hafter (left := left) ?_ ?_ ?_ (actOn_not_awaiting hu (.inl hok.1))
    · rw [ha, hstraps]; exact hs.attempt
    · rw [hstraps]; exact hrecv
    · exact (Activity.ok_congr _ hstraps ha).mpr hok
  · exact .of_idle hs.attempt (hs.not_awaiting (by rw [hact]; rfl)) rfl

theorem noPacket_inOrder {who : Caller} {s t : State} (h : noPacket who s = .next t) (hs : s.InOrder)
    (hact : s.activity = .packet who) (hrecv : 1 ≤ s.straps.hsRecvAttempts) : t.InOrder := by
  have hok := hact ▸ hs.activity
  obtain ⟨hno, _, rfl⟩ | ⟨left, retry, rfl, hafter⟩ | ⟨left, retry, rfl, hl, rfl⟩ := noPacket_cases h
  · exact .of_idle hs.attempt (hs.not_awaiting (by rw [hact]; exact hno)) rfl
  · exact afterAttempt_inOrder hafter (left := left) hs.attempt hrecv hok (by simp)
  · obtain ⟨hrole, -, hhigh, hseqs⟩ := hok
    have hawaits : s.hsState = .awaitingResponse := hs.awaiting.mpr (by rw [hact]; rfl)
    exact .of_handshake hs.attempt hawaits rfl ⟨hrole, by omega, (Nat.sub_le left 1).trans hhigh, hseqs⟩

theorem packetTurn_inOrder {who : Caller} {s t : State} (hs : s.InOrder) (hact : s.activity = .packet who)
    (hrecv : 1 ≤ s.straps.hsRecvAttempts) (h : packetTurn who s = .next t) : t.InOrder := by
  rcases packetTurn_cases h with ⟨p, u, hd, h⟩ | ⟨u, hd, h⟩ | ⟨u, b, queue, hd, -, -, rfl⟩ <;>
    obtain ⟨_, _, _, _, _, _, _, rfl⟩ := tryDecode_eq_with hd
  · exact deliver_inOrder h (hs.congr rfl rfl rfl rfl) hact hrecv
  · exact noPacket_inOrder h (hs.congr rfl rfl rfl rfl) hact hrecv
  · exact hs.congr rfl rfl rfl rfl

theorem step_inOrder {s t : State} (hs : s.InOrder) (h : step s = .next t) : t.InOrder := by
  obtain ⟨hc, ⟨-, -, rfl⟩ | ⟨o, later, ha, -, hstart⟩ | ⟨w, got, ha, rfl⟩ | ⟨who, ha, hturn⟩⟩ := step_cases h
  · exact hs
  · have hne : s.hsState ≠ .awaitingResponse := hs.not_awaiting (by rw [ha]; rfl)
    exact (startOp_starts hstart).inOrder hc.one_le_hsRecvAttempts hs.attempt hne
  · exact scalarTurn_inOrder hs ha
  · exact packetTurn_inOrder hs ha hc.one_le_hsRecvAttempts hturn

/-- Settles O52: each part of the invariant is kept by every step. -/
theorem everyStepKeepsTheInvariant : Obligations.EveryStepKeepsTheInvariant := by
  intro s t hs h
  rw [State.inv_iff] at hs ⊢
  exact ⟨step_buffered hs.1 h, step_inOrder hs.2 h⟩

/-- Settles O51: after reset the buffer and the holding registers are within their widths, and nothing is in
progress. -/
theorem invariantHoldsAfterReset : Obligations.InvariantHoldsAfterReset := by
  intro c
  rw [State.inv_iff]
  exact ⟨⟨rfl, Nat.zero_le _, List.length_replicate⟩, .of_idle (Nat.zero_le _) HsState.noConfusion rfl⟩

/-- Settles O50: the state after reset is written out field by field, so each value is read off. -/
theorem resetValues : Obligations.ResetValues := fun _ => ⟨rfl, rfl, rfl, rfl, rfl, rfl, rfl, rfl, rfl, rfl⟩

end Sys2Proof.Machine
end

section
/-! How `SESSION` becomes `ESTABLISHED` (44_handshake.md R214, R215). -/

namespace Sys2Proof.Machine

open Sys2Proof Host

/-- A Packet that ends a wait in `Accepted` is an ACK of the host's own version with status OK
(44_handshake.md R214). -/
theorem actOn_accepted {p : Packet} {s t : State} (h : actOn p s = .next t) (hs : s.hsState = .awaitingResponse)
    (ht : t.hsState = .accepted) :
    t.hsReason = .none ∧ t.peerVer = s.straps.protocolVersion ∧ t.peerStatus = Code.statusOk ∧
      p.command = Cmd.ack := by
  obtain ⟨-, ⟨-, rfl⟩ | ⟨-, rfl⟩⟩ := actOn_cases h
  · rw [hostReceive_awaiting hs] at ht ⊢
    obtain ⟨st, why, code, v, st', i, -, heq, haccepted⟩ := classify_cases p s
    rw [heq] at ht ⊢
    obtain ⟨hv, hst, hwhy, hcmd⟩ := haccepted ht
    exact ⟨hwhy, hv, hst, hcmd⟩
  · obtain ⟨_, _, _, _, _, _, _, _, _, heq, -⟩ := devPollPacket_handled p s
    rw [heq] at ht
    cases hs.symm.trans ht

/-- An attempt makes `SESSION` `ESTABLISHED` only by the outcome `Accepted`, and then ends. -/
theorem afterAttempt_established {retry : Option Retry} {s t : State} (h : afterAttempt retry s = .next t)
    (hs : s.session ≠ .established) (ht : t.session = .established) :
    s.hsState = .accepted ∧ t = finish .done { s with session := .established } := by
  rcases afterAttempt_cases h with ⟨-, rfl⟩ | ⟨_, -, hacc, rfl⟩ | ⟨q, more, caps, -, -, -, rfl⟩ | ⟨_, -, -, -, rfl⟩
  · exact absurd ht hs
  · exact ⟨hacc, rfl⟩
  · rw [beginAttempt_eq] at ht
    exact absurd ht hs
  · cases ht

theorem deliver_established {who : Caller} {p : Packet} {s t : State} (h : deliver who p s = .next t)
    (hawait : s.hsState = .awaitingResponse ↔ (Activity.packet who).inHandshake = true)
    (hs : s.session ≠ .established) (ht : t.session = .established) :
    t.hsState = .accepted ∧ t.hsReason = .none ∧ t.peerVer = s.straps.protocolVersion ∧
      t.peerStatus = Code.statusOk ∧ p.command = Cmd.ack := by
  obtain ⟨-, hu⟩ | ⟨left, retry, u, rfl, hu, hafter⟩ | ⟨-, -, rfl⟩ := deliver_cases h
  · obtain ⟨-, -, -, -, -, -, -, hsession, -⟩ := actOn_fields hu
    exact absurd (hsession.symm.trans ht) hs
  · obtain ⟨-, -, -, -, -, -, -, hsession, -⟩ := actOn_fields hu
    have hus : u.session ≠ .established := fun e => hs (hsession.symm.trans e)
    obtain ⟨hacc, rfl⟩ := afterAttempt_established hafter hus ht
    have hack := actOn_accepted hu (hawait.mpr rfl) hacc
    exact ⟨hacc, hack⟩
  · exact absurd ht hs

theorem noPacket_not_established {who : Caller} {s t : State} (h : noPacket who s = .next t)
    (hs : s.session ≠ .established) : t.session ≠ .established := by
  intro ht
  obtain ⟨-, _, rfl⟩ | ⟨left, retry, -, hafter⟩ | ⟨left, retry, -, -, rfl⟩ := noPacket_cases h
  · exact hs ht
  · cases (afterAttempt_established hafter hs ht).1
  · exact hs ht

theorem Starts.not_established {o : Op} {s t : State} (h : Starts o s t) (hs : s.session ≠ .established) :
    t.session ≠ .established := by
  cases h.standing with
  | plain hsession => rw [hsession]; exact hs
  | attempted _ hsession => rw [hsession]; exact hs
  | established _ _ hsession => simp [hsession]
  | noAttempt _ _ hsession => simp [hsession]

/-- Settles O26: of all turns only an attempt that received a Packet can establish, and it needs an accepted ACK. -/
theorem establishedMeansAccepted : Obligations.EstablishedMeansAccepted := by
  intro s t hinv h hs ht
  obtain ⟨-, ⟨-, -, rfl⟩ | ⟨o, later, -, -, hstart⟩ | ⟨w, got, -, rfl⟩ | ⟨who, ha, hturn⟩⟩ := step_cases h
  · exact absurd ht hs
  · exact absurd ht ((startOp_starts hstart).not_established hs)
  · obtain ⟨_, _, _, _, heq, -⟩ := scalarTurn_eq_with w got s
    rw [heq] at ht
    exact absurd ht hs
  · have hawait := ha ▸ hinv.awaiting
    rcases packetTurn_cases hturn with ⟨p, u, hd, hdeliver⟩ | ⟨u, hd, hnone⟩ | ⟨u, b, queue, hd, -, -, rfl⟩ <;>
      obtain ⟨_, _, _, _, _, _, _, rfl⟩ := tryDecode_eq_with hd
    · obtain ⟨hacc, hwhy, hver, hstatus, hcmd⟩ := deliver_established hdeliver hawait hs ht
      exact ⟨hacc, hwhy, hver, hstatus, p, by rw [hd], hcmd⟩
    · exact absurd ht (noPacket_not_established hnone hs)
    · exact absurd ht hs

end Sys2Proof.Machine
end

section
/-! The client's register reads (10_state.md R20, 93_implementation_defined.md U12). -/

namespace Sys2Proof.Machine

open Sys2Proof Host

/-- The holding registers belong to both roles (R20). -/
theorem Reg.owner_held : ∀ r ∈ [Reg.pktSeq, .pktCmd, .pktPlen, .pktPayload], r.owner = none := by decide

/-- The registers of the host alone (R20). -/
theorem Reg.owner_host :
    ∀ r ∈ [Reg.hsState, .attempt, .hsReason, .hsErrcode, .peerVer, .peerStatus, .peerId, .session],
      r.owner = some .host := by decide

/-- The registers of the device alone (R20). -/
theorem Reg.owner_device : ∀ r ∈ [Reg.peerVersion, .peerCaps], r.owner = some .device := by decide

theorem Reg.present_of_owner_none {r : Reg} (h : r.owner = none) (s : State) : r.present s = true := by
  simp [Reg.present, h]

theorem Reg.present_of_owner {r : Reg} {role : Role} (h : r.owner = some role) (s : State) :
    r.present s = true ↔ role = s.straps.role := by
  simp [Reg.present, h]

/-- The holding registers may be read while `PKT_VALID` is 1 (R24). -/
theorem Reg.readable_held (s : State) : ∀ r ∈ [Reg.pktSeq, .pktCmd, .pktPlen, .pktPayload], r.readable s = s.pktValid := by
  simp [Reg.readable]

/-- A register of the role that may be read now gives its value. -/
theorem step_readReg {s : State} {later : List Op} {r : Reg} (h : s.asks (.readReg r) later)
    (hp : r.present s = true) (hr : r.readable s = true) :
    step s = .next { s with ops := later, activity := .idle, result := .register (r.value s) } :=
  (step_asks h).trans ((if_pos hp).trans (if_pos hr))

/-- A register of the role that the spec calls unspecified now is the fault. -/
theorem step_readReg_unspecified {s : State} {later : List Op} {r : Reg} (h : s.asks (.readReg r) later)
    (hp : r.present s = true) (hr : ¬ r.readable s = true) : step s = .fault (.unspecifiedRead r) :=
  (step_asks h).trans ((if_pos hp).trans (if_neg hr))

/-- A register of the other role is refused. -/
theorem step_readReg_absent {s : State} {later : List Op} {r : Reg} (h : s.asks (.readReg r) later)
    (hp : ¬ r.present s = true) : step s = .refused .wrongRole :=
  (step_asks h).trans (if_neg hp)

/-- A list of registers, each with its value, that may all be read now. -/
theorem step_readReg_of_mem {s : State} {later : List Op} {r : Reg} {l : List (Reg × RegValue)}
    (h : s.asks (.readReg r) later)
    (hl : ∀ x ∈ l, x.1.present s = true ∧ x.1.readable s = true ∧ x.1.value s = x.2) (v : RegValue) (hv : (r, v) ∈ l) :
    step s = .next { s with ops := later, activity := .idle, result := .register v } := by
  obtain ⟨hp, hr, rfl⟩ : r.present s = true ∧ r.readable s = true ∧ r.value s = v := hl _ hv
  exact step_readReg h hp hr

/-- Settles O55: each clause is a list of registers that are present and readable, present and not readable, or
absent. -/
theorem registerReads : Obligations.RegisterReads := by
  intro s later r h
  refine ⟨step_readReg_of_mem h ?both, fun hv => step_readReg_of_mem h ?held, fun hv hr => ?unheld,
    fun hrole => ⟨step_readReg_of_mem h ?device, fun hr => step_readReg_absent h ?hostOnly⟩,
    fun hrole => ⟨step_readReg_of_mem h ?host, fun hr hwhy => ?errcode, fun hr hwhy => ?noErrcode,
      fun hr => step_readReg_absent h ?deviceOnly⟩⟩
  case both => simp [Reg.present, Reg.owner, Reg.readable, Reg.value]
  case held => simp [Reg.present, Reg.owner, Reg.readable, Reg.value, hv]
  case unheld =>
    exact step_readReg_unspecified h (Reg.present_of_owner_none (Reg.owner_held r hr) s)
      (by simp [Reg.readable_held s r hr, hv])
  case device => simp [Reg.present, Reg.owner, Reg.readable, Reg.value, hrole]
  case hostOnly => simp [Reg.present_of_owner (Reg.owner_host r hr), hrole]
  case host => simp [Reg.present, Reg.owner, Reg.readable, Reg.value, hrole]
  case errcode =>
    subst hr
    exact step_readReg h ((Reg.present_of_owner rfl s).mpr hrole.symm) (by simp [Reg.readable, hwhy])
  case noErrcode =>
    subst hr
    exact step_readReg_unspecified h ((Reg.present_of_owner rfl s).mpr hrole.symm) (by simp [Reg.readable, hwhy])
  case deviceOnly => simp [Reg.present_of_owner (Reg.owner_device r hr), hrole]

end Sys2Proof.Machine
end

section
/-! `RXBUF` changes at its two ends only (20_memory.md R52): a `TRY_DECODE` drops bytes at the front, an append adds one
at the end. -/

namespace Sys2Proof.Machine

open Sys2Proof Host

/-- `m'` is `m` with some bytes dropped at the front and at most one added at the end. -/
def EndsChanged (m m' : List Byte) : Prop :=
  ∃ dropped kept added, m = dropped ++ kept ∧ m' = kept ++ added ∧ added.length ≤ 1

theorem EndsChanged.refl (m : List Byte) : EndsChanged m m := ⟨[], m, [], rfl, by simp, by simp⟩

theorem EndsChanged.of_suffix {m m' : List Byte} (h : ∃ gone, m = gone ++ m') : EndsChanged m m' := by
  obtain ⟨gone, h⟩ := h
  exact ⟨gone, m', [], h, by simp, by simp⟩

/-- One byte may be appended behind what was kept. -/
theorem EndsChanged.of_suffix_append {m kept : List Byte} (h : ∃ gone, m = gone ++ kept) (b : Byte) :
    EndsChanged m (kept ++ [b]) := by
  obtain ⟨gone, h⟩ := h
  exact ⟨gone, kept, [b], h, rfl, by simp⟩

/-- `TRY_DECODE` leaves the end of the bytes it found (42_stream_decoder.md R161). -/
theorem tryDecode_rxbuf_suffix {s u : State} {r : Option Packet} (h : tryDecode s = (r, u)) :
    ∃ gone, s.rxbuf = gone ++ u.rxbuf := by
  obtain ⟨-, hsuffix⟩ := scan_suffix s.crcReg s.rxbuf
  rcases tryDecode_cases s with ⟨-, -, hd⟩ | ⟨p, -, -, hd⟩ <;> cases hd.symm.trans h <;> exact hsuffix

theorem Starts.endsChanged {o : Op} {s t : State} (h : Starts o s t) : EndsChanged s.rxbuf t.rxbuf := by
  by_cases ho : ∃ b, o = .rxAppend b
  · obtain ⟨b, hb⟩ := ho
    obtain ⟨happended, -⟩ := h.appended b hb
    rw [happended]
    exact .of_suffix_append ⟨[], rfl⟩ b
  · obtain hsame | ⟨-, hsuffix⟩ := h.dropped fun b hb => ho ⟨b, hb⟩
    · rw [hsame]; exact .refl _
    · exact .of_suffix hsuffix

/-- A turn of `RECV_PACKET` drops what `TRY_DECODE` drops, and then takes a byte at most if there was no Packet. -/
theorem packetTurn_endsChanged {who : Caller} {s t : State} (h : packetTurn who s = .next t) :
    EndsChanged s.rxbuf t.rxbuf := by
  rcases packetTurn_cases h with ⟨p, u, hd, h⟩ | ⟨u, hd, h⟩ | ⟨u, b, queue, hd, -, -, rfl⟩
  · obtain ⟨-, -, hbuf, -⟩ := deliver_fields h
    rw [hbuf]
    exact .of_suffix (tryDecode_rxbuf_suffix hd)
  · obtain ⟨-, -, hbuf, -⟩ := noPacket_fields h
    have hkept : t.rxbuf = u.rxbuf := hbuf
    rw [hkept]
    exact .of_suffix (tryDecode_rxbuf_suffix hd)
  · exact .of_suffix_append (tryDecode_rxbuf_suffix hd) b

/-- Settles O15: of the four kinds of turn only a start and a turn of `RECV_PACKET` touch `RXBUF`. -/
theorem bufferChangesAtItsEndsOnly : Obligations.BufferChangesAtItsEndsOnly := by
  intro s t h
  obtain ⟨-, ⟨-, -, rfl⟩ | ⟨o, later, -, -, hstart⟩ | ⟨w, got, -, rfl⟩ | ⟨who, -, hturn⟩⟩ := step_cases h
  · exact EndsChanged.refl _
  · exact (startOp_starts hstart).endsChanged
  · obtain ⟨_, _, _, _, heq, -⟩ := scalarTurn_eq_with w got s
    rw [heq]
    exact EndsChanged.refl _
  · exact packetTurn_endsChanged hturn

end Sys2Proof.Machine
end

section
/-! The sequence number of a Packet is echoed and never examined (20_memory.md R62, 44_handshake.md R213): each handler
of the device is a function of it that shows it in the frame sent and its checksum only. -/

namespace Sys2Proof.Machine

open Sys2Proof Host

/-- Whatever the sequence number, the state `f` gives is the same but for the contents of what was sent and for
`CRC_REG`. -/
def SequenceBlind (f : Half → State) : Prop :=
  ∀ seq seq',
    (f seq).wireOut.length = (f seq').wireOut.length ∧
      { f seq with wireOut := [], crcReg := 0#16 } = { f seq' with wireOut := [], crcReg := 0#16 }

theorem SequenceBlind.const (s : State) : SequenceBlind fun _ => s := fun _ _ => ⟨rfl, rfl⟩

theorem SequenceBlind.ite {c : Prop} [Decidable c] {f g : Half → State} (hf : SequenceBlind f) (hg : SequenceBlind g) :
    SequenceBlind fun seq => if c then f seq else g seq := by
  by_cases hc : c
  · simpa only [if_pos hc] using hf
  · simpa only [if_neg hc] using hg

/-- A frame has one length for every sequence number. -/
theorem sendPacket_sequenceBlind (cmd : Byte) (p : List Byte) (s : State) :
    SequenceBlind fun seq => sendPacket seq cmd p s := by
  intro seq seq'
  by_cases hp : p.length ≤ Config.maxPayload
  · simp [sendPacket_eq hp]
  · simp [sendPacket_tooLong (Nat.lt_of_not_le hp)]

theorem sendAck_sequenceBlind (s : State) : SequenceBlind fun seq => sendAck seq s :=
  sendPacket_sequenceBlind Cmd.ack (ackPayload s.straps) s

theorem sendAckIfSet_sequenceBlind (s : State) : SequenceBlind fun seq => sendAckIfSet seq s :=
  .ite (sendAck_sequenceBlind s) (.const s)

theorem handleHello_sequenceBlind (p : List Byte) (s : State) : SequenceBlind fun seq => handleHello seq p s :=
  .ite (sendAck_sequenceBlind { recordHello p s with hsLatch := true })
    (sendPacket_sequenceBlind Cmd.nack nackPayload (recordHello p s))

theorem handleSetAngleCalibrations_sequenceBlind (p : List Byte) (s : State) :
    SequenceBlind fun seq => handleSetAngleCalibrations seq p s :=
  .ite (.const s) (sendAck_sequenceBlind _)

theorem handleSetTargetAngle_sequenceBlind (p : List Byte) (s : State) :
    SequenceBlind fun seq => handleSetTargetAngle seq p s :=
  .ite (.const s) (.ite (.const s) (sendAckIfSet_sequenceBlind _))

theorem handleSetPowerRelay_sequenceBlind (p : List Byte) (s : State) :
    SequenceBlind fun seq => handleSetPowerRelay seq p s := by
  simp only [handleSetPowerRelay_eq]
  cases relayFlag p with
  | none => exact .ite (.const s) (.const s)
  | some flag => exact .ite (.const s) (sendAckIfSet_sequenceBlind _)

theorem handleGetSensor_sequenceBlind (p : List Byte) (s : State) : SequenceBlind fun seq => handleGetSensor seq p s :=
  .ite (.const s) (sendPacket_sequenceBlind Cmd.getSensor _ _)

theorem runHandler_sequenceBlind (h : Handler) (cmd : Byte) (p : List Byte) (s : State) :
    SequenceBlind fun seq => runHandler h ⟨seq, cmd, p⟩ s := by
  cases h with
  | setAngleCalibrations => exact handleSetAngleCalibrations_sequenceBlind p s
  | setTargetAngle => exact handleSetTargetAngle_sequenceBlind p s
  | setPowerRelay => exact handleSetPowerRelay_sequenceBlind p s
  | getAngleCalibrations => exact sendPacket_sequenceBlind Cmd.getAngleCalibrations (calibrationReply s) _
  | getCurrent => exact sendPacket_sequenceBlind Cmd.getCurrent _ _
  | getVoltage => exact sendPacket_sequenceBlind Cmd.getVoltage _ _
  | getSensor => exact handleGetSensor_sequenceBlind p s
  | hello => exact handleHello_sequenceBlind p s

/-- The routing looks at the command byte and the latch (45_dispatcher.md R250). -/
theorem devPollPacket_sequenceBlind (cmd : Byte) (p : List Byte) (s : State) :
    SequenceBlind fun seq => devPollPacket ⟨seq, cmd, p⟩ s := by
  simp only [devPollPacket]
  cases route cmd with
  | none => exact .ite (handleHello_sequenceBlind p s) (.ite (.const s) (.const s))
  | some h => exact .ite (handleHello_sequenceBlind p s) (.ite (.const s) (runHandler_sequenceBlind h cmd p s))

/-- Settles O32: a classification reads the command and the payload, and what a device does with a Packet is blind to
the sequence number. -/
theorem sequenceNumberIsNotExamined : Obligations.SequenceNumberIsNotExamined := by
  intro s seq seq' cmd p
  refine ⟨fun ⟨hhost, hstate⟩ => ?host, fun ⟨hrole, hvariant⟩ => ?device⟩
  case host =>
    have hclassify : classify ⟨seq, cmd, p⟩ s = classify ⟨seq', cmd, p⟩ s := rfl
    rw [actOn_host hhost, actOn_host hhost, hostReceive_awaiting hstate, hostReceive_awaiting hstate, hclassify]
  case device =>
    exact ⟨_, _, actOn_device hrole hvariant _, actOn_device hrole hvariant _,
      devPollPacket_sequenceBlind cmd p s seq seq'⟩

end Sys2Proof.Machine
end

section
/-! The bytes of a frame at the offsets of the frame table (30_encoding.md R81), and frames written out. -/

namespace Sys2Proof

open Sys2Proof.Machine

/-- Five bytes stand in front of the payload. -/
theorem byteAt_frameBytes_from_five (seq : Half) (cmd : Byte) (p : List Byte) (i : Nat) :
    byteAt (frameBytes seq cmd p) (5 + i) =
      byteAt (p ++ [lo8 (checksum (frameBody seq cmd p)), hi8 (checksum (frameBody seq cmd p)), Frame.etx]) i := by
  rw [Nat.add_comm 5 i, frameBytes_eq]
  simp only [byteAt_cons_succ]

theorem byteAt_frameBytes_payload (seq : Half) (cmd : Byte) {p : List Byte} {k : Nat} (h : k < p.length) :
    byteAt (frameBytes seq cmd p) (5 + k) = byteAt p k := by
  rw [byteAt_frameBytes_from_five, byteAt_append_left _ h]

/-- The checksum and ETX stand behind the payload. -/
theorem byteAt_frameBytes_trailer (seq : Half) (cmd : Byte) (p : List Byte) (i : Nat) :
    byteAt (frameBytes seq cmd p) (5 + (p.length + i)) =
      byteAt [lo8 (checksum (frameBody seq cmd p)), hi8 (checksum (frameBody seq cmd p)), Frame.etx] i := by
  rw [byteAt_frameBytes_from_five, byteAt_append_right]

theorem byteAt_frameBytes_length (seq : Half) (cmd : Byte) {p : List Byte} (h : p.length ≤ Config.maxPayload) :
    (byteAt (frameBytes seq cmd p) 1).toNat = p.length + 3 := by
  rw [frameBytes_eq, byteAt_cons_succ, byteAt_cons_zero, lengthByte_toNat h]

/-- Offsets 1 to LEN+1 are the bytes the checksum covers. -/
theorem slice_frameBytes_checksummed (seq : Half) (cmd : Byte) {p : List Byte} (h : p.length ≤ Config.maxPayload) :
    slice (frameBytes seq cmd p) 1 ((byteAt (frameBytes seq cmd p) 1).toNat + 1) = frameBody seq cmd p := by
  rw [byteAt_frameBytes_length seq cmd h]
  simp [frameBytes, slice]

/-- Settles O5: the frame's bytes are five, the payload, the checksum and ETX. -/
theorem frameHasTheLayoutOfTheTable : Obligations.FrameHasTheLayoutOfTheTable := by
  intro seq cmd p h
  have htrailer := byteAt_frameBytes_trailer seq cmd p
  refine ⟨frameBytes seq cmd p, encodeFrame_eq h seq cmd, frameBytes_length seq cmd p, rfl, ?len, rfl, rfl, rfl,
    fun k hk => byteAt_frameBytes_payload seq cmd hk, ?crcLow, ?crcHigh, ?etx⟩
  case len => rw [byteAt_frameBytes_length seq cmd h, Nat.add_comm]
  case crcLow => rw [slice_frameBytes_checksummed seq cmd h]; exact htrailer 0
  case crcHigh =>
    rw [slice_frameBytes_checksummed seq cmd h, show 6 + p.length = 5 + (p.length + 1) by omega]
    exact htrailer 1
  case etx =>
    rw [show 7 + p.length = 5 + (p.length + 2) by omega]
    exact htrailer 2

theorem encodeFrame_eq_some {seq : Half} {cmd : Byte} {p f : List Byte} :
    encodeFrame seq cmd p = some f ↔ p.length ≤ Config.maxPayload ∧ frameBytes seq cmd p = f :=
  Option.ite_none_right_eq_some.trans (and_congr_right' Option.some_inj)

/-- The bytes of an instruction decode to it at a side it arrives at, whatever follows them (41_frame_encoder.md
R138). -/
theorem decode_append_of_encode {r : Role} {i : Instr} {f : List Byte} (hf : encode i = some f)
    (hr : i.arrivesAt r = true) (rest : List Byte) : decode r (f ++ rest) = .instr i rest := by
  obtain ⟨hlen, rfl⟩ := encodeFrame_eq_some.mp hf
  have hrest := List.drop_left' (l₂ := rest)
    (frameBytes_length i.toPacket.sequence i.toPacket.command i.toPacket.payload)
  simp only [decode, pass_frameBytes _ _ _ rest hlen, ofPacket_toPacket r i hr, hrest]

theorem decode_of_encode {r : Role} {i : Instr} {f : List Byte} (hf : encode i = some f)
    (hr : i.arrivesAt r = true) : decode r f = .instr i [] := by
  simpa using decode_append_of_encode hf hr []

/-- Settles O58: each is the frame that `encode` gives for its instruction, its checksum evaluated. -/
theorem writtenFramesDecode : Obligations.WrittenFramesDecode :=
  ⟨decode_of_encode (by decide) rfl, decode_of_encode (by decide) rfl, decode_of_encode (by decide) rfl,
    decode_of_encode (by decide) rfl⟩

end Sys2Proof
end

section
/-! The CRC register as a linear shift register (40_crc.md R122, R123): one pass and one bit-serial step are a shift
and the taps of the bit fed back. -/

namespace Sys2Proof.Machine

open Sys2Proof Host

/-- What the fed-back bit puts into the shifted register: the polynomial, or nothing. -/
def crcFeedback (fb : Bool) : Half := if fb then crcPoly else 0#16

@[simp] theorem crcFeedback_xor (a b : Bool) : crcFeedback (a ^^ b) = crcFeedback a ^^^ crcFeedback b := by
  cases a <;> cases b <;> rfl

/-- The taps are the polynomial's terms: bits 0, 5 and 12. -/
theorem getLsbD_crcFeedback (fb : Bool) {i : Nat} (hi : i < 16) :
    (crcFeedback fb).getLsbD i = (fb && decide (i = 0 ∨ i = 5 ∨ i = 12)) := by
  cases fb with
  | false => exact BitVec.getLsbD_zero
  | true => decide +revert

theorem crcShift_eq_feedback (c : Half) : crcShift c = c <<< 1 ^^^ crcFeedback c.msb := by
  unfold crcShift crcFeedback
  split <;> simp

theorem crcSerialBit_eq_feedback (c : Half) (d : Bool) : crcSerialBit c d = c <<< 1 ^^^ crcFeedback (c.msb ^^ d) := by
  unfold crcSerialBit crcFeedback
  split <;> simp

/-- What `CRC_BYTE` adds to the register before its eight passes. -/
def highByte (b : Byte) : Half := b.zeroExtend 16 <<< 8

theorem getMsbD_highByte (b : Byte) {i : Nat} (hi : i < 8) : (highByte b).getMsbD i = b.getMsbD i := by
  have hhigh : 15 - i - 8 = 7 - i := by omega
  simp [highByte, BitVec.getMsbD, hi, hhigh, show i < 16 by omega, show ¬ 15 - i < 8 by omega,
    show 15 - i < 16 by omega]

theorem highByte_shiftLeft_eight (b : Byte) : highByte b <<< 8 = 0#16 := by
  rw [highByte, ← BitVec.shiftLeft_add]
  exact BitVec.shiftLeft_eq_zero (by decide)

theorem highByte_xor (a b : Byte) : highByte (a ^^^ b) = highByte a ^^^ highByte b := by
  simp only [highByte, BitVec.truncate_eq_setWidth, BitVec.setWidth_xor, BitVec.shiftLeft_xor_distrib]

theorem highByte_injective : Function.Injective highByte := by
  intro a b h
  refine BitVec.eq_of_getMsbD_eq fun i hi => ?_
  rw [← getMsbD_highByte a hi, ← getMsbD_highByte b hi, h]

theorem crcByte_eq_iterate (c : Half) (b : Byte) : crcByte c b = crcShift^[8] (c ^^^ highByte b) := rfl

/-- A pass shifts in at once the top bit that a bit-serial step takes as its input. -/
theorem crcShift_xor_eq_serialBit (c w : Half) : crcShift (c ^^^ w) = crcSerialBit c w.msb ^^^ w <<< 1 := by
  rw [crcShift_eq_feedback, crcSerialBit_eq_feedback, BitVec.msb_xor, BitVec.shiftLeft_xor_distrib]
  ac_rfl

/-- After `n` passes over `c ^^^ w` the top `n` bits of `w` have been fed in, and the rest of `w` has moved up. -/
theorem crcShift_iterate_xor (c w : Half) (n : Nat) :
    crcShift^[n] (c ^^^ w) =
      (List.range n).foldl (fun c i => crcSerialBit c (w.getMsbD i)) c ^^^ w <<< n := by
  induction n with
  | zero => simp
  | succ n ih =>
    rw [Function.iterate_succ_apply', ih, crcShift_xor_eq_serialBit, List.range_succ, List.foldl_concat,
      BitVec.msb_shiftLeft, BitVec.shiftLeft_add]

theorem crcSerialByte_eq_foldl (c : Half) (b : Byte) :
    crcSerialByte c b = (List.range 8).foldl (fun c i => crcSerialBit c (b.getMsbD i)) c := rfl

theorem crcSerialByte_eq_crcByte (c : Half) (b : Byte) : crcSerialByte c b = crcByte c b := by
  rw [crcByte_eq_iterate, crcShift_iterate_xor, highByte_shiftLeft_eight, BitVec.xor_zero, crcSerialByte_eq_foldl]
  exact List.foldl_ext _ _ c fun c' i hi => by rw [getMsbD_highByte b (List.mem_range.mp hi)]

theorem crcSerialBit_taps (c : Half) (d : Bool) {i : Nat} (hi : i < 16) :
    (crcSerialBit c d).getLsbD i =
      if i = 0 then c.getLsbD 15 ^^ d
      else if i = 5 ∨ i = 12 then c.getLsbD (i - 1) ^^ (c.getLsbD 15 ^^ d)
      else c.getLsbD (i - 1) := by
  have hmsb : c.msb = c.getLsbD 15 := BitVec.msb_eq_getLsbD_last c
  rw [crcSerialBit_eq_feedback, BitVec.getLsbD_xor, getLsbD_crcFeedback _ hi, BitVec.getLsbD_shiftLeft, hmsb]
  by_cases h0 : i = 0
  · simp [h0]
  · by_cases ht : i = 5 ∨ i = 12
    · simp [h0, ht, hi]
    · simp [h0, ht, hi]

/-- Settles O2: the byte's bits enter the register one pass at a time, from the top. -/
theorem bitSerialFormGivesTheSameRegister : Obligations.BitSerialFormGivesTheSameRegister :=
  ⟨crcSerialByte_eq_crcByte, fun c d _ hi => crcSerialBit_taps c d hi, by decide⟩

end Sys2Proof.Machine
end

section
/-! The CRC is linear over GF(2) in the register and the bytes together (40_crc.md R126 (a) and (b)). -/

namespace Sys2Proof.Machine

open Sys2Proof Host

/-- A pass is linear over GF(2). -/
theorem crcShift_xor (c d : Half) : crcShift (c ^^^ d) = crcShift c ^^^ crcShift d := by
  simp only [crcShift_eq_feedback, BitVec.msb_xor, crcFeedback_xor, BitVec.shiftLeft_xor_distrib]
  ac_rfl

theorem crcShift_iterate_linear (n : Nat) (c d : Half) : crcShift^[n] (c ^^^ d) = crcShift^[n] c ^^^ crcShift^[n] d :=
  Function.Semiconj₂.iterate crcShift_xor n c d

theorem crcByte_xor (c d : Half) (a b : Byte) : crcByte (c ^^^ d) (a ^^^ b) = crcByte c a ^^^ crcByte d b := by
  simp only [crcByte_eq_iterate, ← crcShift_iterate_linear, highByte_xor]
  congr 1
  ac_rfl

theorem foldl_crcByte_zipWith_xor (c d : Half) {m e : List Byte} (h : m.length = e.length) :
    (List.zipWith (· ^^^ ·) m e).foldl crcByte (c ^^^ d) = m.foldl crcByte c ^^^ e.foldl crcByte d := by
  induction m generalizing c d e with
  | nil => simp [List.eq_nil_of_length_eq_zero h.symm]
  | cons a m ih =>
    cases e with
    | nil => cases h
    | cons b e =>
      simp only [List.zipWith_cons_cons, List.foldl_cons, crcByte_xor]
      exact ih _ _ (Nat.succ.inj h)

theorem checksum_eq_foldl (bs : List Byte) : checksum bs = bs.foldl crcByte crcInit := crcBytes_eq_foldl crcInit bs

/-- Settles O3: a fold over a concatenation; and the byte step is linear in the register and the byte together. -/
theorem checksumIsIncrementalAndAffine : Obligations.ChecksumIsIncrementalAndAffine := by
  refine ⟨fun a b => ?incremental, fun m e h => ?affine⟩
  case incremental => simp only [checksum_eq_foldl, List.foldl_append]
  case affine => simpa [checksum_eq_foldl] using foldl_crcByte_zipWith_xor crcInit 0#16 h

end Sys2Proof.Machine
end

section
/-! A CRC step can be undone, so a change confined to one byte stays visible (40_crc.md R126 (c)). -/

namespace Sys2Proof.Machine

open Sys2Proof Host

/-- The polynomial has the constant term, so bit 0 tells the bit shifted out, and the pass can be undone. -/
theorem crcShift_injective : Function.Injective crcShift := by
  intro c d h
  have hmsb (e : Half) : (crcShift e).getLsbD 0 = e.msb := by
    rw [crcShift_eq_feedback, BitVec.getLsbD_xor, getLsbD_crcFeedback _ (by decide)]
    simp
  have hout : c.msb = d.msb := by rw [← hmsb c, ← hmsb d, h]
  have hshift : c <<< 1 = d <<< 1 := by
    rw [crcShift_eq_feedback, crcShift_eq_feedback, hout] at h
    exact (BitVec.xor_left_inj _).mp h
  refine BitVec.eq_of_getLsbD_eq fun i hi => ?_
  rcases Nat.lt_succ_iff_lt_or_eq.mp hi with hlow | rfl
  · have hbit := congrArg (BitVec.getLsbD · (i + 1)) hshift
    simpa only [BitVec.getLsbD_shiftLeft, show i + 1 < 16 by omega, show ¬ i + 1 < 1 by omega, decide_true,
      decide_false, Bool.not_false, Bool.true_and, Nat.add_sub_cancel] using hbit
  · simpa only [BitVec.msb_eq_getLsbD_last] using hout

theorem crcByte_left_injective (b : Byte) : Function.Injective fun c => crcByte c b := by
  intro c d h
  exact (BitVec.xor_left_inj _).mp (crcShift_injective.iterate 8 h)

theorem crcByte_right_injective (c : Half) : Function.Injective (crcByte c) := by
  intro a b h
  exact highByte_injective ((BitVec.xor_right_inj c).mp (crcShift_injective.iterate 8 h))

theorem foldl_crcByte_injective (bs : List Byte) : Function.Injective fun c => bs.foldl crcByte c := by
  induction bs with
  | nil => exact Function.injective_id
  | cons b bs ih => exact ih.comp (crcByte_left_injective b)

/-- A change confined to one byte changes the register after it, and the bytes behind cannot undo that. -/
theorem foldl_crcByte_modify_ne {f : Byte → Byte} (hf : ∀ b, f b ≠ b) (c : Half) {bs : List Byte} {i : Nat}
    (hi : i < bs.length) : (bs.modify i f).foldl crcByte c ≠ bs.foldl crcByte c := by
  induction bs generalizing c i with
  | nil => cases hi
  | cons b bs ih =>
    cases i with
    | zero => exact (foldl_crcByte_injective bs).ne ((crcByte_right_injective c).ne (hf b))
    | succ i => exact ih (crcByte c b) (Nat.lt_of_succ_lt_succ hi)

theorem xor_bit_ne {i : Nat} (hi : i < 8) (b : Byte) : b ^^^ 1#8 <<< i ≠ b := by
  have hbit : 1#8 <<< i ≠ 0#8 := by decide +revert
  exact xor_left_eq_self_iff.not.mpr hbit

/-- Settles O4: the bit stands in one byte, and every byte step can be undone. -/
theorem singleBitChangeChangesChecksum : Obligations.SingleBitChangeChangesChecksum := by
  intro m k hk
  rw [checksum_eq_foldl, checksum_eq_foldl]
  exact foldl_crcByte_modify_ne (xor_bit_ne (Nat.mod_lt k (by decide))) crcInit (by omega)

end Sys2Proof.Machine
end

section
/-! The three operations of the CRC unit as steps (40_crc.md R121, R122, R124). -/

namespace Sys2Proof.Machine

open Sys2Proof Host

/-- R122's pass as it is written there, on a register of 16 bits. -/
theorem crcShift_eq_pseudocode :
    (fun c : Half => if c.getLsbD 15 then ((c <<< 1) &&& 0xFFFF#16) ^^^ 0x1021#16 else (c <<< 1) &&& 0xFFFF#16) =
      crcShift := by
  funext c
  have hmask (v : Half) : v &&& 0xFFFF#16 = v := BitVec.and_allOnes
  rw [crcShift, BitVec.msb_eq_getLsbD_last, hmask, crcPoly]

/-- Settles O1: the step starts the operation asked for, and each of the three ends at once. -/
theorem crcUnitOperations : Obligations.CrcUnitOperations := by
  intro s later
  refine ⟨fun h => ?init, fun b h => ?byte, fun bs h => ?checksum⟩
  case init => exact step_asks h
  case byte => rw [crcShift_eq_pseudocode]; exact step_asks h
  case checksum =>
    have hsum : checksum bs = bs.foldl crcByte 0xFFFF#16 := checksum_eq_foldl bs
    rw [← hsum]
    exact step_asks h

end Sys2Proof.Machine
end

section
/-! Decoding and encoding are inverse to each other (41_frame_encoder.md R138, 42_stream_decoder.md R152, R163). -/

namespace Sys2Proof

open Sys2Proof.Machine

/-- What decodes to an instruction is a frame that the pass accepts, its Packet in the catalogue. -/
theorem decode_eq_instr {r : Role} {bs rest : List Byte} {i : Instr} (h : decode r bs = .instr i rest) :
    ∃ p size crc, pass bs = .accept p size crc ∧ Instr.ofPacket r p = some i ∧ bs.drop size = rest := by
  unfold decode at h
  split at h
  case h_1 => cases h
  case h_2 => cases h
  case h_3 p size crc hpass =>
    split at h
    case h_1 j hof =>
      cases h
      exact ⟨p, size, crc, hpass, hof, rfl⟩
    case h_2 => cases h

/-- Only the encoding of an instruction, with any bytes behind it, decodes to that instruction. -/
theorem encode_of_decode {r : Role} {bs rest : List Byte} {i : Instr} (h : decode r bs = .instr i rest) :
    i.arrivesAt r = true ∧ ∃ f, encode i = some f ∧ bs = f ++ rest := by
  obtain ⟨p, size, crc, hpass, hof, rfl⟩ := decode_eq_instr h
  obtain ⟨hlen, -, -, hbs⟩ := pass_accept hpass
  obtain ⟨rfl, harrives⟩ := toPacket_ofPacket hof
  exact ⟨harrives, _, encodeFrame_eq hlen _ _, hbs⟩

/-- The encoder answers for the well-formed instructions only (41_frame_encoder.md R136). -/
theorem wf_of_encode {i : Instr} {f : List Byte} (h : encode i = some f) : i.wf = true :=
  decide_eq_true (encodeFrame_eq_some.mp h).1

/-- Settles O7: the pass accepts frames only, and every frame, and the command map is inverse to the Packet of an
instruction at the side where it arrives. -/
theorem decodeAcceptsExactlyTheEncodings : Obligations.DecodeAcceptsExactlyTheEncodings := by
  intro r bs i rest
  constructor
  · intro h
    obtain ⟨harrives, f, hf, hbs⟩ := encode_of_decode h
    exact ⟨wf_of_encode hf, harrives, f, hf, hbs⟩
  · rintro ⟨-, harrives, f, hf, rfl⟩
    exact decode_append_of_encode hf harrives rest

end Sys2Proof
end

section
/-! The operations that encode a frame or decode one, as steps (41_frame_encoder.md R135, R136, R138, 43_transport.md
R186). -/

namespace Sys2Proof.Machine

open Sys2Proof Host

theorem opTryDecode_frameBytes {s : State} {seq : Half} {cmd : Byte} {p rest : List Byte}
    (h : s.rxbuf = frameBytes seq cmd p ++ rest) (hp : p.length ≤ Config.maxPayload) :
    opTryDecode s = finish (.packet ⟨seq, cmd, p⟩)
      (State.holdPacket ⟨seq, cmd, p⟩ { s with rxbuf := rest, crcReg := checksum (frameBody seq cmd p) }) := by
  rw [opTryDecode, tryDecode_frameBytes h hp]

/-- Settles O8: the buffer is one frame with nothing behind it, and the bytes behind the payload are those that
`PKT_PAYLOAD` held there. -/
theorem tryDecodeReturnsTheEncodedPacket : Obligations.TryDecodeReturnsTheEncodedPacket := by
  intro s later seq cmd p hp hasks hframe
  have hbuf : s.rxbuf = frameBytes seq cmd p ++ [] := by
    rw [List.append_nil, (encodeFrame_eq_some.mp hframe).2]
  refine ⟨s.pktPayload.drop p.length, (step_asks hasks).trans (congrArg Outcome.next ?_)⟩
  exact opTryDecode_frameBytes (s := { s with ops := later }) hbuf hp

theorem opEncode_eq {p : List Byte} (h : p.length ≤ Config.maxPayload) (seq : Half) (cmd : Byte) (s : State) :
    opEncode seq cmd p s =
      finish (.bytes (frameBytes seq cmd p)) { s with crcReg := checksum (frameBody seq cmd p) } := by
  rw [opEncode, encodeFrame_eq h]

theorem opEncode_tooLong {p : List Byte} (h : Config.maxPayload < p.length) (seq : Half) (cmd : Byte) (s : State) :
    opEncode seq cmd p s = finish .encTooLong s := by
  rw [opEncode, encodeFrame_tooLong h]

theorem opSendPacket_eq {p : List Byte} (h : p.length ≤ Config.maxPayload) (seq : Half) (cmd : Byte) (s : State) :
    opSendPacket seq cmd p s =
      finish .ok { s with
        crcReg := checksum (frameBody seq cmd p)
        wireOut := s.wireOut ++ frameBytes seq cmd p
        events := s.events ++ [.sent (p.length + 8)] } := by
  rw [opSendPacket, encodeFrame_eq h, sendPacket_eq h, frameBytes_length]

theorem opSendPacket_tooLong {p : List Byte} (h : Config.maxPayload < p.length) (seq : Half) (cmd : Byte) (s : State) :
    opSendPacket seq cmd p s = finish .encTooLong s := by
  rw [opSendPacket, encodeFrame_tooLong h]

/-- Settles O6: the step starts the operation asked for, which ends at once, on either side of the payload bound. -/
theorem encodeAndSendPacketOperations : Obligations.EncodeAndSendPacketOperations := by
  intro s later seq cmd p
  refine ⟨fun hp h => ?encode, fun hp h => ?encodeTooLong, fun hp h => ?send, fun hp h => ?sendTooLong⟩
  case encode => exact (step_asks h).trans (congrArg Outcome.next (opEncode_eq hp seq cmd _))
  case encodeTooLong => exact (step_asks h).trans (congrArg Outcome.next (opEncode_tooLong hp seq cmd _))
  case send => exact (step_asks h).trans (congrArg Outcome.next (opSendPacket_eq hp seq cmd _))
  case sendTooLong => exact (step_asks h).trans (congrArg Outcome.next (opSendPacket_tooLong hp seq cmd _))

end Sys2Proof.Machine
end

section
/-! One pass of the decoder's loop, an equation for each test (42_stream_decoder.md R152), and the drops told by
`harmless` (R165). -/

namespace Sys2Proof

open Sys2Proof.Machine

/-! The buffer from an index on. -/

theorem byteAt_drop (m : List Byte) (k i : Nat) : byteAt (m.drop k) i = byteAt m (k + i) := by
  simp only [byteAt, List.getD_eq_getElem?_getD, List.getElem?_drop]

theorem slice_drop (m : List Byte) (k i j : Nat) : slice (m.drop k) i j = slice m (k + i) (k + j) := by
  rw [slice, slice, List.drop_drop, show k + j + 1 - (k + i) = j + 1 - i by omega]

theorem eq_cons_of_stx {m : List Byte} (h : byteAt m 0 = Frame.stx) : ∃ t, m = Frame.stx :: t := by
  cases m with
  | nil => exact absurd h (by decide)
  | cons b t => exact ⟨t, congrArg (· :: t) h⟩

/-! The tests, in the order of R152. -/

/-- Step 1 (R153). -/
theorem pass_notStx {b : Byte} (h : b ≠ Frame.stx) (t : List Byte) : pass (b :: t) = .drop .notStx none := by
  rw [pass, if_pos h]

/-- Step 2 (R154). -/
theorem pass_tooFewBytes {m : List Byte} (hstx : byteAt m 0 = Frame.stx) (h : m.length < 8) :
    pass m = .wait .tooFewBytes := by
  obtain ⟨t, rfl⟩ := eq_cons_of_stx hstx
  rw [pass, if_neg (not_not.mpr rfl), if_pos h]

/-- Step 3 (R155). -/
theorem pass_badLength {m : List Byte} (hstx : byteAt m 0 = Frame.stx) (h8 : 8 ≤ m.length)
    (h : (byteAt m 1).toNat < 3) : pass m = .drop .badLength none := by
  obtain ⟨t, rfl⟩ := eq_cons_of_stx hstx
  rw [pass, if_neg (not_not.mpr rfl), if_neg (Nat.not_lt.mpr h8), if_pos h]

/-- Step 4 (R156). -/
theorem pass_frameIncomplete {m : List Byte} (hstx : byteAt m 0 = Frame.stx) (h8 : 8 ≤ m.length)
    (h3 : 3 ≤ (byteAt m 1).toNat) (h : m.length < (byteAt m 1).toNat + 5) : pass m = .wait .frameIncomplete := by
  obtain ⟨t, rfl⟩ := eq_cons_of_stx hstx
  rw [pass, if_neg (not_not.mpr rfl), if_neg (Nat.not_lt.mpr h8), if_neg (Nat.not_lt.mpr h3), if_pos h]

/-- Step 5 (R157). -/
theorem pass_badTrailer {m : List Byte} (hstx : byteAt m 0 = Frame.stx) (h3 : 3 ≤ (byteAt m 1).toNat)
    (hlen : (byteAt m 1).toNat + 5 ≤ m.length) (h : byteAt m ((byteAt m 1).toNat + 4) ≠ Frame.etx) :
    pass m = .drop .badTrailer none := by
  obtain ⟨t, rfl⟩ := eq_cons_of_stx hstx
  rw [pass, if_neg (not_not.mpr rfl), if_neg (by omega), if_neg (Nat.not_lt.mpr h3), if_neg (Nat.not_lt.mpr hlen),
    if_pos h]

/-- Step 6 (R158). -/
theorem pass_badChecksum {m : List Byte} (hstx : byteAt m 0 = Frame.stx) (h3 : 3 ≤ (byteAt m 1).toNat)
    (hlen : (byteAt m 1).toNat + 5 ≤ m.length) (hetx : byteAt m ((byteAt m 1).toNat + 4) = Frame.etx)
    (h : checksum (slice m 1 ((byteAt m 1).toNat + 1)) ≠
      le16 (byteAt m ((byteAt m 1).toNat + 2)) (byteAt m ((byteAt m 1).toNat + 3))) :
    pass m = .drop .badChecksum (some (checksum (slice m 1 ((byteAt m 1).toNat + 1)))) := by
  obtain ⟨t, rfl⟩ := eq_cons_of_stx hstx
  rw [pass, if_neg (not_not.mpr rfl), if_neg (by omega), if_neg (Nat.not_lt.mpr h3), if_neg (Nat.not_lt.mpr hlen),
    if_neg (not_not.mpr hetx), if_pos h]

/-- Step 7 (R159). -/
theorem pass_wholeFrame {m : List Byte} (hstx : byteAt m 0 = Frame.stx) (h3 : 3 ≤ (byteAt m 1).toNat)
    (hlen : (byteAt m 1).toNat + 5 ≤ m.length) (hetx : byteAt m ((byteAt m 1).toNat + 4) = Frame.etx)
    (hcrc : checksum (slice m 1 ((byteAt m 1).toNat + 1)) =
      le16 (byteAt m ((byteAt m 1).toNat + 2)) (byteAt m ((byteAt m 1).toNat + 3))) :
    ∃ p size c, pass m = .accept p size c := by
  obtain ⟨t, rfl⟩ := eq_cons_of_stx hstx
  rw [pass, if_neg (not_not.mpr rfl), if_neg (by omega), if_neg (Nat.not_lt.mpr h3), if_neg (Nat.not_lt.mpr hlen),
    if_neg (not_not.mpr hetx), if_neg (not_not.mpr hcrc)]
  exact ⟨_, _, _, rfl⟩

/-! Harmless indices. -/

theorem harmless_drop (m : List Byte) (k : Nat) : harmless (m.drop k) 0 ↔ harmless m k := by
  simp only [harmless, byteAt_drop, slice_drop, List.length_drop, Nat.zero_add, Nat.add_zero, Nat.sub_zero,
    Nat.add_assoc]

theorem pass_drop_of_harmless {m : List Byte} (h8 : 8 ≤ m.length) (h : harmless m 0) :
    ∃ why c, pass m = .drop why c := by
  by_cases hstx : byteAt m 0 = Frame.stx
  · simp only [harmless, Nat.zero_add, Nat.sub_zero] at h
    by_cases h3 : (byteAt m 1).toNat < 3
    · exact ⟨_, _, pass_badLength hstx h8 h3⟩
    · rcases (h hstx).resolve_left h3 with ⟨hlen, hetx⟩ | ⟨hlen, hcrc⟩
      · exact ⟨_, _, pass_badTrailer hstx (Nat.not_lt.mp h3) hlen hetx⟩
      · by_cases hetx : byteAt m ((byteAt m 1).toNat + 4) = Frame.etx
        · exact ⟨_, _, pass_badChecksum hstx (Nat.not_lt.mp h3) hlen hetx hcrc⟩
        · exact ⟨_, _, pass_badTrailer hstx (Nat.not_lt.mp h3) hlen hetx⟩
  · cases m with
    | nil => exact absurd h8 (by simp)
    | cons b t => exact ⟨_, _, pass_notStx hstx t⟩

theorem harmless_of_pass_drop {m : List Byte} {why : FrameReject} {c : Option Half} (h : pass m = .drop why c) :
    harmless m 0 := by
  intro hstx
  simp only [Nat.zero_add, Nat.sub_zero]
  by_contra hnot
  obtain ⟨h3, hetx, hcrc⟩ : _ ∧ _ ∧ _ := by simpa only [not_or] using hnot
  have h3 := Nat.not_lt.mp h3
  by_cases h8 : m.length < 8
  · cases (pass_tooFewBytes hstx h8).symm.trans h
  · by_cases hlen : (byteAt m 1).toNat + 5 ≤ m.length
    · obtain ⟨_, _, _, haccept⟩ := pass_wholeFrame hstx h3 hlen (not_not.mp fun hne => hetx ⟨hlen, hne⟩)
        (not_not.mp fun hne => hcrc ⟨hlen, hne⟩)
      cases haccept.symm.trans h
    · cases (pass_frameIncomplete hstx (Nat.not_lt.mp h8) h3 (Nat.not_le.mp hlen)).symm.trans h

/-- With eight bytes from index `k` on, the pass there drops its byte exactly when the index is harmless. -/
theorem pass_drop_iff_harmless {m : List Byte} {k : Nat} (h8 : 8 ≤ m.length - k) :
    (∃ why c, pass (m.drop k) = .drop why c) ↔ harmless m k := by
  rw [← harmless_drop]
  exact ⟨fun ⟨_, _, h⟩ => harmless_of_pass_drop h, pass_drop_of_harmless (by rwa [List.length_drop])⟩

end Sys2Proof
end

section
/-! Resynchronization (42_stream_decoder.md R165): the scan drops the bytes up to the first index that is not
harmless. -/

namespace Sys2Proof.Machine

open Sys2Proof Host

theorem tryDecode_fst (s : State) : (tryDecode s).1 = (scan s.crcReg s.rxbuf).packet := by
  rcases tryDecode_cases s with ⟨h, -, hd⟩ | ⟨p, h, -, hd⟩ <;> rw [hd, h]

theorem tryDecode_snd_rxbuf (s : State) : (tryDecode s).2.rxbuf = (scan s.crcReg s.rxbuf).rest := by
  rcases tryDecode_cases s with ⟨-, -, hd⟩ | ⟨p, -, -, hd⟩
  · rw [hd]
  · rw [hd, State.holdPacket_rxbuf]

/-- A buffer that is one valid frame is emptied. -/
theorem scan_frameBytes_alone (c : Half) (seq : Half) (cmd : Byte) {p : List Byte} (hp : p.length ≤ Config.maxPayload) :
    scan c (frameBytes seq cmd p) = ⟨some ⟨seq, cmd, p⟩, [], checksum (frameBody seq cmd p)⟩ := by
  have h := scan_frameBytes c seq cmd p [] hp
  rwa [List.append_nil] at h

/-- A scan whose first `k` passes drop goes on at index `k`. -/
theorem scan_of_drops {m : List Byte} {k : Nat} (c : Half) (h : ∀ j < k, ∃ why d, pass (m.drop j) = .drop why d) :
    ∃ d, scan c m = scan d (m.drop k) := by
  induction k generalizing c m with
  | zero => exact ⟨c, rfl⟩
  | succ k ih =>
    obtain ⟨why, d, hpass⟩ := h 0 (Nat.succ_pos k)
    cases m with
    | nil => cases hpass
    | cons b t =>
      obtain ⟨e, he⟩ := ih (m := t) (d.getD c) fun j hj => h (j + 1) (Nat.succ_lt_succ hj)
      exact ⟨e, (scan_drop hpass c).trans he⟩

/-- The scan ends at the bytes `m`: it waits on them, or takes a frame off their front. -/
def ScanEndsAt (r : Scan) (m : List Byte) : Prop :=
  (r.packet = none ∧ r.rest = m) ∨
    ∃ q f, r.packet = some q ∧ encodeFrame q.sequence q.command q.payload = some f ∧ m = f ++ r.rest

theorem scan_endsAt_of_not_drop {m : List Byte} (c : Half) (h : ¬ ∃ why d, pass m = .drop why d) :
    ScanEndsAt (scan c m) m := by
  cases hpass : pass m with
  | wait why => rw [scan_wait hpass]; exact .inl ⟨rfl, rfl⟩
  | drop why d => exact absurd ⟨why, d, hpass⟩ h
  | accept q size d =>
    obtain ⟨hlen, -, -, hm⟩ := pass_accept hpass
    rw [scan_accept hpass]
    exact .inr ⟨q, _, rfl, encodeFrame_eq hlen _ _, hm⟩

section

variable {g m p : List Byte} {seq : Half} {cmd : Byte} (hm : m = g ++ frameBytes seq cmd p)
include hm

/-- The frame behind the garbage leaves every index of the garbage enough bytes for the passes' length test. -/
theorem pass_garbage_drop_iff {k : Nat} (hk : k < g.length) :
    (∃ why c, pass (m.drop k) = .drop why c) ↔ harmless m k :=
  pass_drop_iff_harmless (by rw [hm, List.length_append, frameBytes_length]; omega)

/-- Past harmless garbage the scan takes the frame. -/
theorem scan_harmless_garbage (c : Half) (hp : p.length ≤ Config.maxPayload) (h : ∀ k < g.length, harmless m k) :
    (scan c m).packet = some ⟨seq, cmd, p⟩ ∧ (scan c m).rest = [] := by
  obtain ⟨d, hscan⟩ := scan_of_drops c fun k hk => (pass_garbage_drop_iff hm hk).mpr (h k hk)
  rw [hscan, hm, List.drop_left, scan_frameBytes_alone d seq cmd hp]
  exact ⟨rfl, rfl⟩

theorem scan_endsAt_first_not_harmless {k : Nat} (c : Half) (hk : k < g.length) (hnot : ¬ harmless m k)
    (hbefore : ∀ j < k, harmless m j) : ScanEndsAt (scan c m) (m.drop k) := by
  obtain ⟨d, hscan⟩ := scan_of_drops c fun j hj => (pass_garbage_drop_iff hm (hj.trans hk)).mpr (hbefore j hj)
  rw [hscan]
  exact scan_endsAt_of_not_drop d (mt (pass_garbage_drop_iff hm hk).mp hnot)

/-- A scan that gives the frame's Packet and empties the buffer has not ended in the garbage: from there a frame of
that length leaves bytes over. -/
theorem harmless_of_scan_garbage {c : Half} (hpacket : (scan c m).packet = some ⟨seq, cmd, p⟩)
    (hrest : (scan c m).rest = []) (k : Nat) (hk : k < g.length) : harmless m k := by
  induction k using Nat.strong_induction_on with
  | _ k ih =>
    by_contra hnot
    have hends := scan_endsAt_first_not_harmless hm c hk hnot fun j hj => ih j hj (hj.trans hk)
    obtain ⟨hnone, -⟩ | ⟨q, f, hq, hf, hdrop⟩ := hends
    · cases hnone.symm.trans hpacket
    · cases hq.symm.trans hpacket
      have hlen := congrArg List.length hdrop
      rw [hrest, List.append_nil, ← (encodeFrame_eq_some.mp hf).2, List.length_drop, hm, List.length_append,
        frameBytes_length] at hlen
      omega

end

/-- A byte that is not STX is harmless. -/
theorem harmless_garbage_of_forall_ne {g : List Byte} (h : ∀ b ∈ g, b ≠ Frame.stx) (f : List Byte) {k : Nat}
    (hk : k < g.length) : harmless (g ++ f) k := by
  intro hstx
  rw [byteAt_append_left f hk, byteAt, List.getD_eq_getElem g _ hk] at hstx
  exact absurd hstx (h _ (List.getElem_mem hk))

/-- Settles O10: the passes before the first index that is not harmless drop, and the pass at it does not; where all of
the garbage is harmless the scan reaches the frame. -/
theorem resyncExactlyWhenGarbageIsHarmless : Obligations.ResyncExactlyWhenGarbageIsHarmless := by
  intro s g f seq cmd p hf hbuf
  obtain ⟨hp, rfl⟩ := encodeFrame_eq_some.mp hf
  rw [tryDecode_fst, tryDecode_snd_rxbuf, hbuf]
  refine ⟨⟨fun ⟨hpacket, hrest⟩ => ?needed, fun h => ?enough⟩, fun k hk hnot hbefore => ?first, fun h => ?noStx⟩
  case needed => exact harmless_of_scan_garbage rfl hpacket hrest
  case enough => exact scan_harmless_garbage rfl _ hp h
  case first => exact scan_endsAt_first_not_harmless rfl _ hk hnot hbefore
  case noStx => exact scan_harmless_garbage rfl _ hp fun k => harmless_garbage_of_forall_ne h _

end Sys2Proof.Machine
end

section
/-! What a `TRY_DECODE` leaves in `RXBUF` (42_stream_decoder.md R162), of a frame not yet whole (R166) and of two frames
(R167). -/

namespace Sys2Proof.Machine

open Sys2Proof Host

theorem byteAt_zero_of_head? {m : List Byte} {b : Byte} (h : m.head? = some b) : byteAt m 0 = b := by
  obtain ⟨t, rfl⟩ := List.head?_eq_some_iff.mp h
  rfl

/-- After `None` the buffer waits, and the state is one that another `TRY_DECODE` leaves as it is. -/
theorem tryDecode_none {s : State} (h : (tryDecode s).1 = none) :
    Waiting (tryDecode s).2.rxbuf ∧ tryDecode (tryDecode s).2 = (none, (tryDecode s).2) := by
  rcases tryDecode_cases s with ⟨-, hwait, hd⟩ | ⟨p, -, -, hd⟩ <;> rw [hd] at h ⊢
  · exact ⟨hwait, tryDecode_waiting hwait⟩
  · cases h

/-- After a Packet exactly its frame and the bytes before it are gone. -/
theorem tryDecode_some {s : State} {p : Packet} (h : (tryDecode s).1 = some p) :
    ∃ before f, encodeFrame p.sequence p.command p.payload = some f ∧
      s.rxbuf = before ++ (f ++ (tryDecode s).2.rxbuf) := by
  rw [tryDecode_fst] at h
  rw [tryDecode_snd_rxbuf]
  rcases scan_cases s.crcReg s.rxbuf with ⟨hnone, -, -⟩ | ⟨q, before, hq, hlen, hbuf, -⟩
  · cases hnone.symm.trans h
  · cases hq.symm.trans h
    exact ⟨before, _, encodeFrame_eq hlen _ _, hbuf⟩

/-- Settles O9: a scan ends at a waiting buffer or behind a frame. -/
theorem bufferAfterTryDecode : Obligations.BufferAfterTryDecode := by
  intro s
  refine ⟨fun h => ?none, fun p h => tryDecode_some h, tryDecode_rxbuf_suffix rfl⟩
  case none =>
    obtain ⟨hwait, hagain⟩ := tryDecode_none h
    exact ⟨hwait.imp_right (And.imp_left byteAt_zero_of_head?), waiting_length_le hwait, hagain⟩

/-- Settles O13: each frame is at the front when its call comes. -/
theorem backToBackFramesDecodeInOrder : Obligations.BackToBackFramesDecodeInOrder := by
  intro s seq seq' cmd cmd' p p' f f' hf hf' hbuf
  obtain ⟨hp, rfl⟩ := encodeFrame_eq_some.mp hf
  obtain ⟨hp', rfl⟩ := encodeFrame_eq_some.mp hf'
  have hfirst := tryDecode_frameBytes hbuf hp
  have hrest : (tryDecode s).2.rxbuf = frameBytes seq' cmd' p' ++ [] := by rw [hfirst, List.append_nil]; rfl
  rw [tryDecode_frameBytes hrest hp', hfirst]
  exact ⟨rfl, rfl, rfl, rfl⟩

/-- The pass over the first `k` bytes of a frame waits, at the emptiness test, at step 2 or at step 4. -/
theorem pass_take_frameBytes (seq : Half) (cmd : Byte) {p : List Byte} {k : Nat} (hp : p.length ≤ Config.maxPayload)
    (hk : k < p.length + 8) :
    pass ((frameBytes seq cmd p).take k) =
      .wait (if k = 0 then .noBytes else if k < 8 then .tooFewBytes else .frameIncomplete) := by
  have hlength : ((frameBytes seq cmd p).take k).length = k := by
    rw [List.length_take, frameBytes_length, Nat.min_eq_left hk.le]
  have hbyte {i : Nat} (hi : i < k) : byteAt ((frameBytes seq cmd p).take k) i = byteAt (frameBytes seq cmd p) i := by
    simp only [byteAt, List.getD_eq_getElem?_getD, List.getElem?_take_of_lt hi]
  by_cases h0 : k = 0
  · subst h0; rfl
  rw [if_neg h0]
  have hstx : byteAt ((frameBytes seq cmd p).take k) 0 = Frame.stx := hbyte (Nat.pos_of_ne_zero h0)
  by_cases h8 : k < 8
  · rw [if_pos h8, pass_tooFewBytes hstx (by omega)]
  · rw [if_neg h8]
    have hlen : (byteAt ((frameBytes seq cmd p).take k) 1).toNat = p.length + 3 := by
      rw [hbyte (by omega), byteAt_frameBytes_length seq cmd hp]
    exact pass_frameIncomplete hstx (by omega) (by omega) (by omega)

/-- Settles O12: a pass that waits leaves the buffer as it is, and the whole frame is accepted. -/
theorem partialFrameIsNotConsumed : Obligations.PartialFrameIsNotConsumed := by
  intro s seq cmd p k hp hbuf
  rw [tryDecode_fst, tryDecode_snd_rxbuf, hbuf]
  refine ⟨fun hk => ?part, fun hk => ?whole⟩
  case part =>
    have hpass := pass_take_frameBytes seq cmd hp hk
    rw [scan_wait hpass]
    exact ⟨rfl, rfl, hpass⟩
  case whole =>
    rw [hk, ← frameBytes_length seq cmd p, List.take_length, scan_frameBytes_alone _ seq cmd hp]
    exact ⟨rfl, rfl⟩

end Sys2Proof.Machine
end

section
/-! `RX_APPEND` as a step (42_stream_decoder.md R150). -/

namespace Sys2Proof.Machine

open Sys2Proof Host

theorem opRxAppend_eq {s : State} (h : s.rxbuf.length < s.straps.rxbufCap) (b : Byte) :
    opRxAppend b s = .next (finish .done { s with rxbuf := s.rxbuf ++ [b] }) := by
  rw [opRxAppend, appendByte_eq h]

theorem opRxAppend_full {s : State} (h : ¬ s.rxbuf.length < s.straps.rxbufCap) (b : Byte) :
    opRxAppend b s = .refused .rxbufFull := by
  rw [opRxAppend, appendByte_full h]

/-- Settles O14: the step starts the operation asked for, which ends at once or is refused. -/
theorem rxAppendAddsOneByteOrIsRefused : Obligations.RxAppendAddsOneByteOrIsRefused := by
  intro s later b hasks
  refine ⟨fun h => ?room, fun h => ?full⟩
  case room => exact (step_asks hasks).trans (opRxAppend_eq (s := { s with ops := later }) h b)
  case full => exact (step_asks hasks).trans (opRxAppend_full (s := { s with ops := later }) h b)

end Sys2Proof.Machine
end

section
/-! A single-bit flip in a valid frame (42_stream_decoder.md R164 (a) and (b)): the flipped byte stands in STX, in what
the checksum covers, in the checksum, or in ETX. -/

namespace Sys2Proof.Machine

open Sys2Proof Host

/-! Bytes with one bit flipped. -/

@[simp] theorem flipBit_length (bs : List Byte) (k : Nat) : (flipBit bs k).length = bs.length :=
  List.length_modify _ _ _

theorem byteAt_flipBit_ne {k i : Nat} (h : k / 8 ≠ i) (bs : List Byte) : byteAt (flipBit bs k) i = byteAt bs i := by
  simp only [byteAt, flipBit, List.getD_eq_getElem?_getD, List.getElem?_modify_ne _ _ h]

theorem byteAt_flipBit_same {bs : List Byte} {k i : Nat} (h : k / 8 = i) (hi : i < bs.length) :
    byteAt (flipBit bs k) i ≠ byteAt bs i := by
  have hflipped : byteAt (flipBit bs k) i = byteAt bs i ^^^ 1#8 <<< (k % 8) := by
    simp only [byteAt, flipBit, h, List.getD_eq_getElem?_getD, List.getElem?_modify_eq, List.getElem?_eq_getElem hi]
    rfl
  rw [hflipped]
  exact xor_bit_ne (Nat.mod_lt k (by decide)) _

theorem flipBit_of_length_le {bs : List Byte} {k : Nat} (h : bs.length ≤ k / 8) : flipBit bs k = bs :=
  List.modify_eq_self h

/-- A flip behind the start of a slice is a flip of the slice. -/
theorem slice_flipBit {i k : Nat} (h : i ≤ k / 8) (bs : List Byte) (j : Nat) :
    slice (flipBit bs k) i j = flipBit (slice bs i j) (k - 8 * i) := by
  rw [slice, flipBit, List.drop_modify_of_ge _ _ _ _ h, List.take_modify, flipBit, slice,
    show (k - 8 * i) / 8 = k / 8 - i by omega, show (k - 8 * i) % 8 = k % 8 by omega]

theorem slice_append_left {m : List Byte} {j : Nat} (h : j < m.length) (t : List Byte) (i : Nat) :
    slice (m ++ t) i j = slice m i j := by
  rw [slice, slice, ← List.drop_take, ← List.drop_take, List.take_append_of_le_length h]

/-! The damaged frame, with any bytes behind it. -/

section

variable {seq : Half} {cmd : Byte} {m p rest : List Byte} {k : Nat}
  (hm : m = flipBit (frameBytes seq cmd p) k ++ rest)
include hm

/-- The bytes beside the flipped one are the frame's. -/
theorem byteAt_flipped_frame {i : Nat} (hi : i < p.length + 8) (hne : k / 8 ≠ i) :
    byteAt m i = byteAt (frameBytes seq cmd p) i := by
  rw [hm, byteAt_append_left rest (by rwa [flipBit_length, frameBytes_length]), byteAt_flipBit_ne hne]

/-- The flipped byte is not the frame's. -/
theorem byteAt_flipped_frame_ne {i : Nat} (hi : i < p.length + 8) (heq : k / 8 = i) :
    byteAt m i ≠ byteAt (frameBytes seq cmd p) i := by
  rw [hm, byteAt_append_left rest (by rwa [flipBit_length, frameBytes_length])]
  exact byteAt_flipBit_same heq (by rwa [frameBytes_length])

/-- What the checksum of the damaged frame is taken over. -/
theorem slice_flipped_frame (hp : p.length ≤ Config.maxPayload) (hk : 8 ≤ k) :
    slice m 1 (p.length + 4) = flipBit (frameBody seq cmd p) (k - 8) := by
  have hbody := slice_frameBytes_checksummed seq cmd hp
  rw [byteAt_frameBytes_length seq cmd hp] at hbody
  rw [hm, slice_append_left (by rw [flipBit_length, frameBytes_length]; omega), slice_flipBit (by omega), hbody]

/-- The checksum of the damaged frame is not the stored one: the flip changes the one or the other. -/
theorem checksum_flipped_frame_ne (hp : p.length ≤ Config.maxPayload) (hk : 16 ≤ k) (hk' : k < 8 * (p.length + 7)) :
    checksum (slice m 1 (p.length + 4)) ≠ le16 (byteAt m (p.length + 5)) (byteAt m (p.length + 6)) := by
  have hlow : byteAt (frameBytes seq cmd p) (p.length + 5) = lo8 (checksum (frameBody seq cmd p)) := by
    rw [Nat.add_comm]; exact byteAt_frameBytes_trailer seq cmd p 0
  have hhigh : byteAt (frameBytes seq cmd p) (p.length + 6) = hi8 (checksum (frameBody seq cmd p)) := by
    rw [show p.length + 6 = 5 + (p.length + 1) by omega]; exact byteAt_frameBytes_trailer seq cmd p 1
  rw [slice_flipped_frame hm hp (by omega)]
  by_cases hbody : k < 8 * (p.length + 5)
  case pos =>
    rw [byteAt_flipped_frame hm (by omega) (by omega), byteAt_flipped_frame hm (by omega) (by omega), hlow, hhigh,
      le16_lo8_hi8]
    exact singleBitChangeChangesChecksum _ _ (by rw [frameBody_length]; omega)
  case neg =>
    rw [flipBit_of_length_le (by rw [frameBody_length]; omega)]
    intro hcrc
    by_cases hbyte : k / 8 = p.length + 5
    · exact byteAt_flipped_frame_ne hm (by omega) hbyte (by rw [hlow, hcrc, lo8_le16])
    · have hbyte' : k / 8 = p.length + 6 := by omega
      exact byteAt_flipped_frame_ne hm (by omega) hbyte' (by rw [hhigh, hcrc, hi8_le16])

/-- Steps 1 to 4 find the damaged frame as the valid one: STX, its LEN, and as many bytes as LEN says. -/
theorem header_flipped_frame (hp : p.length ≤ Config.maxPayload) (hk : 16 ≤ k) :
    byteAt m 0 = Frame.stx ∧ (byteAt m 1).toNat = p.length + 3 ∧ p.length + 8 ≤ m.length := by
  refine ⟨byteAt_flipped_frame hm (by omega) (by omega), ?len, ?size⟩
  case len => rw [byteAt_flipped_frame hm (by omega) (by omega), byteAt_frameBytes_length seq cmd hp]
  case size => rw [hm, List.length_append, flipBit_length, frameBytes_length]; omega

theorem pass_flipped_stx (hk : k < 8) : pass m = .drop .notStx none := by
  rw [hm, frameBytes_eq, flipBit, Nat.div_eq_of_lt hk, List.modify_zero_cons]
  exact pass_notStx (xor_bit_ne (Nat.mod_lt k (by decide)) _) _

end

/-- Settles O11: outside LEN a flip leaves the tests before the one it fails as they are. -/
theorem singleBitFlipOutsideLenIsRejected : Obligations.SingleBitFlipOutsideLenIsRejected := by
  intro seq cmd p rest k hp
  generalize hm : flipBit (frameBytes seq cmd p) k ++ rest = m
  have hetx : byteAt (frameBytes seq cmd p) (p.length + 7) = Frame.etx := by
    rw [show p.length + 7 = 5 + (p.length + 2) by omega]; exact byteAt_frameBytes_trailer seq cmd p 2
  refine ⟨fun hk hk' => ?checksum, pass_flipped_stx hm.symm, fun hk hk' => ?etx⟩
  case checksum =>
    obtain ⟨hstx, hlen, hsize⟩ := header_flipped_frame hm.symm hp hk
    refine ⟨_, pass_badChecksum hstx (by omega) (by omega) ?_ ?_⟩ <;> rw [hlen]
    · rw [byteAt_flipped_frame hm.symm (by omega) (by omega), hetx]
    · exact checksum_flipped_frame_ne hm.symm hp hk hk'
  case etx =>
    obtain ⟨hstx, hlen, hsize⟩ := header_flipped_frame hm.symm hp (by omega)
    refine pass_badTrailer hstx (by omega) (by omega) ?_
    rw [hlen, ← hetx]
    exact byteAt_flipped_frame_ne hm.symm (by omega) (by omega)

end Sys2Proof.Machine
end

section
/-! The bound on `RXBUF` (43_transport.md R189): a buffer that only `RECV_PACKET` feeds is one that waits, with at most
one byte behind it. -/

namespace Sys2Proof.Machine

open Sys2Proof Host

/-! What a `TRY_DECODE` leaves of such a buffer. -/

theorem tryDecode_none_leaves {s u : State} (h : tryDecode s = (none, u)) : Waiting u.rxbuf ∧ u.pktValid = false := by
  rcases tryDecode_cases s with ⟨-, hwait, hd⟩ | ⟨p, -, -, hd⟩ <;> cases hd.symm.trans h
  exact ⟨hwait, rfl⟩

theorem tryDecode_some_leaves {s u : State} {p : Packet} (h : tryDecode s = (some p, u)) :
    u.rxbuf = (scan s.crcReg s.rxbuf).rest ∧ (scan s.crcReg s.rxbuf).packet = some p ∧ u.pktValid = true := by
  rcases tryDecode_cases s with ⟨-, -, hd⟩ | ⟨q, hq, -, hd⟩ <;> cases hd.symm.trans h
  exact ⟨rfl, hq, rfl⟩

/-- The bytes that `RXBUF` may hold inside `RECV_PACKET`: those it may hold anywhere, or a waiting buffer and one byte
more. -/
def HeldInReceive (m : List Byte) : Prop := m.length ≤ 259 ∨ ∃ w b, m = w ++ [b] ∧ Waiting w

theorem HeldInReceive.length_le {m : List Byte} (h : HeldInReceive m) : m.length ≤ 260 := by
  obtain h | ⟨w, b, rfl, hw⟩ := h
  · omega
  · have := waiting_length_le hw
    simp only [List.length_append, List.length_singleton]
    omega

/-- A frame at the front of a waiting buffer and one byte more ends with that byte: before it the buffer did not wait for
it. -/
theorem rest_eq_nil_of_waiting {w rest p : List Byte} {b : Byte} {seq : Half} {cmd : Byte} (hw : Waiting w)
    (hp : p.length ≤ Config.maxPayload) (h : w ++ [b] = frameBytes seq cmd p ++ rest) : rest = [] := by
  rcases rest.eq_nil_or_concat' with hrest | ⟨more, last, rfl⟩
  · exact hrest
  · obtain ⟨why, hpass⟩ := pass_of_waiting hw
    obtain ⟨rfl, -⟩ := List.append_inj' (h.trans (List.append_assoc ..).symm) rfl
    cases hpass.symm.trans (pass_frameBytes seq cmd p more hp)

/-- A Packet leaves at most 251 bytes: a frame has at least 8, and the byte that made 260 completed a frame of 260 or
stands behind a byte that was dropped. -/
theorem scan_packet_rest_length_le {c : Half} {m : List Byte} {p : Packet} (hm : HeldInReceive m)
    (h : (scan c m).packet = some p) : (scan c m).rest.length ≤ 251 := by
  rcases scan_cases c m with ⟨hnone, -, -⟩ | ⟨q, before, -, hq, hbuf, -⟩
  · cases hnone.symm.trans h
  have hlength := congrArg List.length hbuf
  simp only [List.length_append, frameBytes_length] at hlength
  cases before with
  | cons b more =>
    have := hm.length_le
    rw [List.length_cons] at hlength
    omega
  | nil =>
    obtain hle | ⟨w, b, hsplit, hw⟩ := hm
    · omega
    · rw [rest_eq_nil_of_waiting hw hq (hsplit.symm.trans hbuf)]
      exact Nat.zero_le _

/-! The bound of a state. -/

theorem State.bufferBound_of_length_le {s : State} (h : s.rxbuf.length ≤ 259) : s.bufferBound := by
  unfold State.bufferBound
  split
  · exact h
  · exact h
  · exact .inl h

theorem State.bufferBound_packet {s : State} {who : Caller} (ha : s.activity = .packet who) :
    s.bufferBound ↔ HeldInReceive s.rxbuf := by
  rw [State.bufferBound, ha, HeldInReceive]

theorem State.bufferBound.length_le_of_not_packet {s : State} (h : s.bufferBound)
    (ha : ∀ who, s.activity ≠ .packet who) : s.rxbuf.length ≤ 259 := by
  unfold State.bufferBound at h
  split at h
  · exact h
  · exact h
  · next who hwho => exact absurd hwho (ha who)

theorem State.bufferBound.length_le {s : State} (h : s.bufferBound) : s.rxbuf.length ≤ 260 := by
  by_cases ha : ∃ who, s.activity = .packet who
  · obtain ⟨who, hwho⟩ := ha
    exact ((bufferBound_packet hwho).mp h).length_le
  · exact (h.length_le_of_not_packet fun who hwho => ha ⟨who, hwho⟩).trans (by decide)

/-- An operation other than `RX_APPEND` adds nothing to `RXBUF` when it starts. -/
theorem Starts.rxbuf_length_le {o : Op} {s t : State} (h : Starts o s t) (ho : ∀ b, o ≠ .rxAppend b) :
    t.rxbuf.length ≤ s.rxbuf.length := by
  obtain heq | ⟨-, gone, heq⟩ := h.dropped ho
  · rw [heq]
  · rw [heq, List.length_append]; omega

/-- The three ends of a turn of `RECV_PACKET`: a Packet with at most 251 bytes left, `NoPacket` with a waiting buffer, or
one byte more behind a waiting buffer. -/
theorem packetTurn_rxbuf {who : Caller} {s t : State} (hs : HeldInReceive s.rxbuf) (h : packetTurn who s = .next t) :
    (t.pktValid = true ∧ t.rxbuf.length ≤ 251) ∨ (t.pktValid = false ∧ Waiting t.rxbuf) ∨
      (t.pktValid = false ∧ t.activity = s.activity ∧ ∃ w b, t.rxbuf = w ++ [b] ∧ Waiting w) := by
  rcases packetTurn_cases h with ⟨p, u, hd, h⟩ | ⟨u, hd, h⟩ | ⟨u, b, queue, hd, -, -, rfl⟩
  · obtain ⟨hrest, hpacket, hvalid⟩ := tryDecode_some_leaves hd
    obtain ⟨-, -, hbuf, -, hkept, -⟩ := deliver_fields h
    exact .inl ⟨hkept.trans hvalid, by rw [hbuf, hrest]; exact scan_packet_rest_length_le hs hpacket⟩
  · obtain ⟨hwait, hvalid⟩ := tryDecode_none_leaves hd
    obtain ⟨-, -, hbuf, -, hkept, -⟩ := noPacket_fields h
    exact .inr (.inl ⟨hkept.trans hvalid, hbuf ▸ hwait⟩)
  · obtain ⟨hwait, hvalid⟩ := tryDecode_none_leaves hd
    obtain ⟨_, _, _, _, _, _, _, rfl⟩ := tryDecode_eq_with hd
    exact .inr (.inr ⟨hvalid, rfl, _, b, rfl, hwait⟩)

theorem step_bufferBound {s t : State} (hs : s.bufferBound) (hfeed : s.feedsByRecv) (h : step s = .next t) :
    t.bufferBound := by
  obtain ⟨-, ⟨-, -, rfl⟩ | ⟨o, later, ha, ho, hstart⟩ | ⟨w, got, ha, rfl⟩ | ⟨who, ha, hturn⟩⟩ := step_cases h
  · exact hs
  · have hno : ∀ b, o ≠ .rxAppend b := fun b hb => hfeed ha b later (hb ▸ ho)
    exact State.bufferBound_of_length_le
      (((startOp_starts hstart).rxbuf_length_le hno).trans (hs.length_le_of_not_packet (by simp [ha])))
  · obtain ⟨_, _, _, _, heq, -⟩ := scalarTurn_eq_with w got s
    rw [heq]
    exact State.bufferBound_of_length_le (hs.length_le_of_not_packet (by simp [ha]))
  · rcases packetTurn_rxbuf ((State.bufferBound_packet ha).mp hs) hturn with ⟨-, hle⟩ | ⟨-, hwait⟩ | ⟨-, hact, hone⟩
    · exact State.bufferBound_of_length_le (hle.trans (by decide))
    · exact State.bufferBound_of_length_le (waiting_length_le hwait)
    · exact (State.bufferBound_packet (hact.trans ha)).mpr (.inr hone)

/-- Settles O20: of the turns that are not an `RX_APPEND` only one of `RECV_PACKET` adds a byte, and it does so behind a
buffer that waits. -/
theorem bufferBoundUnderRecvPacket : Obligations.BufferBoundUnderRecvPacket := by
  refine ⟨fun s hs => ⟨hs.length_le, hs.length_le_of_not_packet⟩,
    fun s t hs hfeed h => ⟨step_bufferBound hs hfeed h, fun who ha => ?_⟩⟩
  have hturn : packetTurn who s = .next t := (step_packet (step_cases h).1 ha).symm.trans h
  rcases packetTurn_rxbuf ((State.bufferBound_packet ha).mp hs) hturn with
    ⟨hvalid, hle⟩ | ⟨hvalid, hwait⟩ | ⟨hvalid, hact, -⟩
  · exact ⟨by simp [hvalid], fun _ => hle⟩
  · exact ⟨fun _ _ => hwait.imp_right And.left, by simp [hvalid]⟩
  · exact ⟨by simp [hact, ha], by simp [hvalid]⟩

end Sys2Proof.Machine
end

section
/-! The scalar transfers (43_transport.md R180 to R185): a send is one action; a receive takes one byte a turn, ends with
the last, and fails on a `Timeout` before it. -/

namespace Sys2Proof.Machine

open Sys2Proof Host

/-- Settles O16: the step starts the operation asked for, which sends and ends at once. -/
theorem scalarSendsPutBytesLowFirst : Obligations.ScalarSendsPutBytesLowFirst :=
  fun _ _ => ⟨fun _ h => step_asks h, fun _ h => step_asks h, fun _ h => step_asks h⟩

/-! The environment's answers. -/

theorem recv_timeout_or_nothing {s : State} (h : s.timeouts.head? = some true ∨ s.wireIn = []) :
    recv s = (.timeout, { s with timeouts := s.timeouts.tail }) := by
  obtain h | h := h
  · obtain ⟨later, hlater⟩ := List.head?_eq_some_iff.mp h
    rw [recv_timeout hlater, hlater]
    rfl
  · exact recv_nothing h

/-- An answer that is not listed, or listed as `false`, is no `Timeout`. -/
theorem head?_ne_true_of_take {answers : List Bool} {n : Nat} (h : ∀ a ∈ answers.take (n + 1), a = false) :
    answers.head? ≠ some true := by
  cases answers with
  | nil => simp
  | cons a later => simp [h a (by simp)]

/-- The answers behind the first of those that deliver. -/
theorem take_tail_of_take {answers : List Bool} {n : Nat} (h : ∀ a ∈ answers.take (n + 1), a = false) :
    ∀ a ∈ answers.tail.take n, a = false := by
  cases answers with
  | nil => simp
  | cons b later => exact fun a ha => h a (List.mem_cons_of_mem b ha)

/-! The turns of a scalar receive. -/

/-- The operation that receives a scalar. -/
def Scalar.op : Scalar → Op
  | .u8 => .recvU8
  | .u16 => .recvU16
  | .u32 => .recvU32

/-- The state inside a scalar receive that has taken the bytes `got`, with what the environment still holds. -/
def State.inScalar (w : Scalar) (got queue : List Byte) (answers : List Bool) (s : State) : State :=
  { s with wireIn := queue, timeouts := answers, activity := .scalar w got }

theorem step_recvScalar {s : State} {later : List Op} (w : Scalar) (h : s.asks w.op later) :
    step s = .next (State.inScalar w [] s.wireIn s.timeouts { s with ops := later }) := by
  rw [step_asks h]
  cases w <;> rfl

theorem step_inScalar {s : State} (hc : s.configured) (w : Scalar) (got queue : List Byte) (answers : List Bool) :
    step (s.inScalar w got queue answers) = .next (scalarTurn w got (s.inScalar w got queue answers)) :=
  step_scalar (s := s.inScalar w got queue answers) hc rfl

section
variable {s : State} {w : Scalar} {got : List Byte} {answers : List Bool} (hc : s.configured)
include hc

/-- A byte before the last is kept, and the receive goes on. -/
theorem step_inScalar_more {b : Byte} {queue : List Byte} (ht : answers.head? ≠ some true)
    (hl : got.length + 1 < w.size) :
    step (s.inScalar w got (b :: queue) answers) = .next (s.inScalar w (got ++ [b]) queue answers.tail) := by
  rw [step_inScalar hc, scalarTurn, recv_byte (s := s.inScalar w got (b :: queue) answers) rfl ht]
  exact congrArg Outcome.next (if_pos hl)

/-- The last byte ends the receive with the value. -/
theorem step_inScalar_last {b : Byte} {queue : List Byte} (ht : answers.head? ≠ some true)
    (hl : w.size ≤ got.length + 1) :
    step (s.inScalar w got (b :: queue) answers) = .next
      { s with
        wireIn := queue
        timeouts := answers.tail
        xerr := false
        activity := .idle
        result := w.value (got ++ [b]) } := by
  rw [step_inScalar hc, scalarTurn, recv_byte (s := s.inScalar w got (b :: queue) answers) rfl ht]
  exact congrArg Outcome.next (if_neg hl.not_gt)

/-- A `Timeout` ends the receive with `Fail`; the bytes taken are lost (R184). -/
theorem step_inScalar_timeout {queue : List Byte} (ht : answers.head? = some true ∨ queue = []) :
    step (s.inScalar w got queue answers) = .next
      { s with
        wireIn := queue
        timeouts := answers.tail
        xerr := true
        activity := .idle
        result := .fail } := by
  rw [step_inScalar hc, scalarTurn, recv_timeout_or_nothing (s := s.inScalar w got queue answers) ht]
  rfl

/-- A scalar receive takes delivered bytes, one a step, as long as they do not complete the scalar. -/
theorem run_inScalar (taken : List Byte) {rest : List Byte} (ht : ∀ a ∈ answers.take taken.length, a = false)
    (hl : got.length + taken.length < w.size) :
    run taken.length (s.inScalar w got (taken ++ rest) answers) =
      .next (s.inScalar w (got ++ taken) rest (answers.drop taken.length)) := by
  induction taken generalizing got answers with
  | nil => simp
  | cons b more ih =>
    rw [List.length_cons] at ht hl ⊢
    have hmore : (got ++ [b]).length + more.length < w.size := by
      rw [List.length_append, List.length_singleton]
      omega
    rw [List.cons_append, run_step (step_inScalar_more hc (head?_ne_true_of_take ht) (by omega)),
      ih (take_tail_of_take ht) hmore, List.drop_tail, List.append_assoc, List.singleton_append]

end

/-- The start of a scalar receive and the bytes before its end. -/
theorem run_recvScalar_taken {s : State} {later : List Op} {w : Scalar} {taken rest : List Byte} (h : s.asks w.op later)
    (hw : s.wireIn = taken ++ rest) (ht : ∀ a ∈ s.timeouts.take taken.length, a = false)
    (hl : taken.length < w.size) :
    run (taken.length + 1) s =
      .next (State.inScalar w taken rest (s.timeouts.drop taken.length) { s with ops := later }) := by
  rw [run_step (step_recvScalar w h), hw]
  exact run_inScalar (s := { s with ops := later }) h.1 taken ht (by simpa using hl)

/-- A scalar receive whose bytes are all delivered returns them as its value. -/
theorem run_recvScalar_delivered {s : State} {later : List Op} {w : Scalar} (taken : List Byte) {last : Byte}
    {rest : List Byte} (h : s.asks w.op later) (hw : s.wireIn = taken ++ last :: rest)
    (ht : ∀ a ∈ s.timeouts.take (taken.length + 1), a = false) (hl : taken.length + 1 = w.size) :
    run (taken.length + 2) s = .next
      { s with
        ops := later
        wireIn := rest
        timeouts := s.timeouts.drop (taken.length + 1)
        xerr := false
        activity := .idle
        result := w.value (taken ++ [last]) } := by
  have hbefore : ∀ a ∈ s.timeouts.take taken.length, a = false := fun a ha =>
    ht a (List.take_subset_take_left _ (Nat.le_succ _) ha)
  have hlast : (s.timeouts.drop taken.length).head? ≠ some true := by
    refine head?_ne_true_of_take (n := 0) fun a ha => ht a ?_
    rw [List.take_add, List.mem_append]
    exact .inr ha
  have hend := step_inScalar_last (s := { s with ops := later }) (b := last) (queue := rest) h.1 hlast hl.ge
  rw [List.tail_drop] at hend
  exact (run_add (b := 1) (run_recvScalar_taken h hw hbefore (by omega))).trans ((run_one _).trans hend)

/-- A scalar receive in which a `Timeout` comes before its last byte fails. -/
theorem run_recvScalar_timeout {s : State} {later : List Op} {w : Scalar} {taken rest : List Byte}
    (h : s.asks w.op later) (hw : s.wireIn = taken ++ rest) (ht : ∀ a ∈ s.timeouts.take taken.length, a = false)
    (hl : taken.length < w.size) (hstop : (s.timeouts.drop taken.length).head? = some true ∨ rest = []) :
    run (taken.length + 2) s = .next
      { s with
        ops := later
        wireIn := rest
        timeouts := s.timeouts.drop (taken.length + 1)
        xerr := true
        activity := .idle
        result := .fail } := by
  have hend := step_inScalar_timeout (s := { s with ops := later }) (w := w) (got := taken) h.1 hstop
  rw [List.tail_drop] at hend
  exact (run_add (b := 1) (run_recvScalar_taken h hw ht hl)).trans ((run_one _).trans hend)

/-- Settles O17: at each width the bytes before the last are taken one a step; then the last byte comes or a `Timeout`. -/
theorem scalarReceivesAssembleOrFail : Obligations.ScalarReceivesAssembleOrFail := by
  intro s later rest
  refine ⟨fun b0 h hw ht => ?u8, fun b0 b1 h hw ht => ?u16, fun b0 b1 b2 b3 h hw ht => ?u32,
    fun o size taken ho hl h hw ht hend => ?timeout⟩
  case u8 => exact run_recvScalar_delivered (w := .u8) [] h hw ht rfl
  case u16 => exact run_recvScalar_delivered (w := .u16) [b0] h hw ht rfl
  case u32 => exact run_recvScalar_delivered (w := .u32) [b0, b1, b2] h hw ht rfl
  case timeout =>
    obtain ⟨w, rfl, rfl⟩ : ∃ w : Scalar, w.op = o ∧ w.size = size := by
      simp only [List.mem_cons, Prod.mk.injEq, List.not_mem_nil, or_false] at ho
      obtain ⟨rfl, rfl⟩ | ⟨rfl, rfl⟩ | ⟨rfl, rfl⟩ := ho
      · exact ⟨.u8, rfl, rfl⟩
      · exact ⟨.u16, rfl, rfl⟩
      · exact ⟨.u32, rfl, rfl⟩
    exact run_recvScalar_timeout h hw ht hl hend

end Sys2Proof.Machine
end

section
/-! `RECV_PACKET` turn by turn (43_transport.md R187): a byte goes behind what waits, a `Timeout` ends the client's
operation, a Packet is delivered; a whole frame is taken byte by byte. -/

namespace Sys2Proof.Machine

open Sys2Proof Host

theorem State.configured.dispatchVariant_framed {s : State} (h : s.configured) : s.straps.dispatchVariant = .framed := by
  simp only [State.configured, configRefusal, h.straps_wf, if_true] at h
  split at h
  · assumption
  · cases h

/-- `TRY_DECODE` gave nothing, and no byte came. -/
theorem packetTurn_of_timeout {who : Caller} {s t u : State} (hd : tryDecode s = (none, t))
    (hr : recv t = (.timeout, u)) : packetTurn who s = noPacket who u := by
  simp only [packetTurn, hd, hr]

/-- `TRY_DECODE` gave nothing, and a byte came. -/
theorem packetTurn_of_byte {who : Caller} {s t u : State} {b : Byte} (hd : tryDecode s = (none, t))
    (hr : recv t = (.byte b, u)) : packetTurn who s = appendByte b u := by
  simp only [packetTurn, hd, hr]

/-- `TRY_DECODE` gave a Packet: it is delivered, and nothing is taken from the wire. -/
theorem packetTurn_of_some {who : Caller} {s t : State} {p : Packet} (hd : tryDecode s = (some p, t)) :
    packetTurn who s = deliver who p t := by
  simp only [packetTurn, hd]

/-- After a `TRY_DECODE` that gave nothing there is room for a byte (R189). -/
theorem room_of_tryDecode_none {s t : State} (hc : s.configured) (hd : tryDecode s = (none, t)) :
    t.rxbuf.length < t.straps.rxbufCap := by
  obtain ⟨hwait, -⟩ := tryDecode_none_leaves hd
  obtain ⟨_, _, _, _, _, _, _, rfl⟩ := tryDecode_eq_with hd
  exact room_of_waiting hc hwait

/-- The client's own `RECV_PACKET` returns the Packet, at either side, if no response is awaited. -/
theorem deliver_client {s : State} (hc : s.configured) (p : Packet)
    (hrest : s.straps.role = .host → s.hsState ≠ .awaitingResponse) :
    deliver .client p s = .next { s with xerr := false, activity := .idle, result := .packet p } := by
  cases hrole : s.straps.role with
  | device => simp only [deliver, hrole]; rfl
  | host =>
    have hframed : (received s).framedHost := ⟨hrole, hc.dispatchVariant_framed⟩
    have hstate : (received s).hsState ≠ .awaitingResponse := hrest hrole
    simp only [deliver, hrole]
    rw [actOn_host hframed, hostReceive_idle hstate]
    rfl

/-- Settles O18: a start, and one turn of the loop for each thing that `TRY_DECODE` and `Transport.recv` can give. -/
theorem recvPacketLoop : Obligations.RecvPacketLoop := by
  intro s
  refine ⟨fun later h => step_asks h, fun who t b u hc ha hd hr => ?byte, fun t u hc ha hd hr => ?timeout,
    fun p t hc ha hd hrest => ?packet⟩
  case byte =>
    have hroom := room_of_tryDecode_none hc hd
    rw [step_packet hc ha, packetTurn_of_byte hd hr]
    rcases recv_cases t with h | ⟨b', queue, -, h⟩ <;> cases h.symm.trans hr
    exact appendByte_eq (s := { t with wireIn := queue, timeouts := t.timeouts.tail }) hroom b
  case timeout =>
    rw [step_packet hc ha, packetTurn_of_timeout hd hr]
    rfl
  case packet =>
    rw [step_packet hc ha, packetTurn_of_some hd]
    obtain ⟨_, _, _, _, _, _, _, rfl⟩ := tryDecode_eq_with hd
    refine deliver_client ?_ p ?_
    · exact hc
    · exact hrest

/-! A frame taken byte by byte. -/

theorem waiting_take_frameBytes (seq : Half) (cmd : Byte) {p : List Byte} {k : Nat} (hp : p.length ≤ Config.maxPayload)
    (hk : k < p.length + 8) : Waiting ((frameBytes seq cmd p).take k) :=
  pass_wait (pass_take_frameBytes seq cmd hp hk)

/-- A `RECV_PACKET` whose buffer waits takes the byte that is delivered. -/
theorem step_takes_byte {s : State} {who : Caller} {b : Byte} {queue : List Byte} (hc : s.configured)
    (ha : s.activity = .packet who) (hwait : Waiting s.rxbuf) (hw : s.wireIn = b :: queue) (ht : s.delivers) :
    step s = .next { s with rxbuf := s.rxbuf ++ [b], wireIn := queue, pktValid := false } := by
  have hno : s.timeouts.head? ≠ some true := by rw [show s.timeouts = [] from ht]; simp
  have htail : s.timeouts.tail = s.timeouts := by rw [show s.timeouts = [] from ht]; rfl
  rw [step_packet hc ha, packetTurn_byte hwait hw hno (room_of_waiting hc hwait), htail]

section
variable {s : State} {who : Caller} {seq : Half} {cmd : Byte} {p rest : List Byte} (hp : p.length ≤ Config.maxPayload)
  (hc : s.configured) (ha : s.activity = .packet who) (hempty : s.rxbuf = [])
  (hw : s.wireIn = frameBytes seq cmd p ++ rest) (ht : s.delivers)
include hp hc ha hempty hw ht

/-- The first `k + 1` bytes of a frame are taken in as many steps, and nothing is decoded early
(42_stream_decoder.md R166). -/
theorem run_takes_frame {k : Nat} (hk : k < p.length + 8) :
    run (k + 1) s = .next
      { s with
        rxbuf := (frameBytes seq cmd p).take (k + 1)
        wireIn := (frameBytes seq cmd p).drop (k + 1) ++ rest
        pktValid := false } := by
  induction k with
  | zero =>
    rw [frameBytes_eq] at hw ⊢
    rw [run_one, step_takes_byte hc ha (.inl hempty) hw ht, hempty]
    rfl
  | succ k ih =>
    have hlt : k + 1 < (frameBytes seq cmd p).length := by rw [frameBytes_length]; omega
    refine (run_add (ih (by omega))).trans ((run_one _).trans ?_)
    rw [List.drop_eq_getElem_cons hlt, List.take_succ_eq_append_getElem hlt]
    exact step_takes_byte hc ha (waiting_take_frameBytes seq cmd hp hk) rfl ht

theorem run_takes_whole_frame :
    run (p.length + 8) s = .next { s with rxbuf := frameBytes seq cmd p, wireIn := rest, pktValid := false } := by
  have hlength : p.length + 7 + 1 = (frameBytes seq cmd p).length := (frameBytes_length seq cmd p).symm
  have h := run_takes_frame hp hc ha hempty hw ht (k := p.length + 7) (by omega)
  rwa [hlength, List.take_length, List.drop_length, List.nil_append, ← hlength] at h

end

/-- The turn that finds exactly a frame in the buffer delivers its Packet and takes nothing from the wire. -/
theorem step_delivers_frame {s : State} {who : Caller} {seq : Half} {cmd : Byte} {p : List Byte}
    (hp : p.length ≤ Config.maxPayload) (hc : s.configured) (ha : s.activity = .packet who)
    (hbuf : s.rxbuf = frameBytes seq cmd p) :
    step s = deliver who ⟨seq, cmd, p⟩
      (State.holdPacket ⟨seq, cmd, p⟩ { s with rxbuf := [], crcReg := checksum (frameBody seq cmd p) }) := by
  have hframe : s.rxbuf = frameBytes seq cmd p ++ [] := by rw [hbuf, List.append_nil]
  rw [step_packet hc ha, packetTurn_of_some (tryDecode_frameBytes hframe hp)]

/-- Settles O19: the frame is taken byte by byte, and the turn that finds it whole delivers its Packet. -/
theorem recvPacketTakesAFrameByteByByte : Obligations.RecvPacketTakesAFrameByteByByte := by
  intro s who seq cmd p rest hp hc ha hempty hw ht
  have htaken := run_takes_whole_frame hp hc ha hempty hw ht
  refine ⟨htaken, (run_add (b := 1) htaken).trans ((run_one _).trans (step_delivers_frame hp ?_ ?_ rfl))⟩
  · exact hc
  · exact ha

end Sys2Proof.Machine
end

section
/-! An operation in progress always goes on (43_transport.md R189, 60_exceptions.md R300): a Packet is acted on at either
side, an attempt has its next sequence number, a byte has its room. -/

namespace Sys2Proof.Machine

open Sys2Proof Host

theorem actOn_next {s : State} (hframed : s.straps.dispatchVariant = .framed) (p : Packet) :
    ∃ t, actOn p s = .next t := by
  cases hrole : s.straps.role with
  | host => exact ⟨_, actOn_host ⟨hrole, hframed⟩ p⟩
  | device => exact ⟨_, actOn_device hrole hframed p⟩

/-- What follows an attempt is a step, if `HS_ESTABLISH` has one sequence number for each attempt to come. -/
theorem afterAttempt_next {retry : Option Retry} {s : State}
    (hseqs : ∀ r, retry = some r → r.seqs.length + s.attempt = s.straps.hsMaxAttempts) :
    ∃ t, afterAttempt retry s = .next t := by
  match retry with
  | none => exact ⟨_, rfl⟩
  | some ⟨seqs, caps⟩ =>
    by_cases hacc : s.hsState = .accepted
    · exact ⟨_, if_pos hacc⟩
    simp only [afterAttempt, if_neg hacc, establishLoop]
    by_cases hlt : s.attempt < s.straps.hsMaxAttempts
    · match seqs with
      | seq :: later => exact ⟨_, if_pos hlt⟩
      | [] =>
        have hcount := hseqs _ rfl
        simp only [List.length_nil] at hcount
        omega
    · exact ⟨_, if_neg hlt⟩

theorem deliver_next {who : Caller} {s : State} (hframed : s.straps.dispatchVariant = .framed)
    (hok : (Activity.packet who).ok s) (p : Packet) : ∃ t, deliver who p s = .next t := by
  obtain ⟨u, hu⟩ := actOn_next (s := received s) hframed p
  match who, hok with
  | .client, _ =>
    simp only [deliver]
    cases s.straps.role with
    | host => exact ⟨u, hu⟩
    | device => exact ⟨_, rfl⟩
  | .devPoll, _ => exact ⟨u, hu⟩
  | .handshake _ retry, ⟨_, _, _, hseqs⟩ =>
    obtain ⟨hstraps, -, -, -, -, -, -, -, hattempt, -⟩ := actOn_fields hu
    simp only [deliver, hu]
    exact afterAttempt_next (by rw [hstraps, hattempt]; exact hseqs)

theorem noPacket_next {who : Caller} {s : State} (hok : (Activity.packet who).ok s) : ∃ t, noPacket who s = .next t := by
  match who, hok with
  | .client, _ => exact ⟨_, rfl⟩
  | .devPoll, _ => exact ⟨_, rfl⟩
  | .handshake left retry, ⟨_, _, _, hseqs⟩ =>
    simp only [noPacket, attemptNoPacket]
    by_cases hleft : left ≤ 1
    · rw [if_pos hleft]
      exact afterAttempt_next hseqs
    · exact ⟨_, if_neg hleft⟩

/-- A turn of `RECV_PACKET` is a step, whatever `TRY_DECODE` and the environment give. -/
theorem packetTurn_next {who : Caller} {s : State} (hc : s.configured) (hok : (Activity.packet who).ok s) :
    ∃ t, packetTurn who s = .next t := by
  cases hd : tryDecode s with
  | mk packet t =>
    have hkept : t.straps = s.straps ∧ t.attempt = s.attempt := by
      obtain ⟨_, _, _, _, _, _, _, rfl⟩ := tryDecode_eq_with hd
      exact ⟨rfl, rfl⟩
    obtain ⟨hstraps, hattempt⟩ := hkept
    have hok' : (Activity.packet who).ok t := (Activity.ok_congr _ hstraps hattempt).mpr hok
    cases packet with
    | some p =>
      rw [packetTurn_of_some hd]
      exact deliver_next (by rw [hstraps]; exact hc.dispatchVariant_framed) hok' p
    | none =>
      rcases recv_cases t with hr | ⟨b, queue, -, hr⟩
      · rw [packetTurn_of_timeout hd hr]
        exact noPacket_next ((Activity.ok_congr (s := t) _ rfl rfl).mpr hok')
      · rw [packetTurn_of_byte hd hr]
        have hroom := room_of_tryDecode_none hc hd
        exact ⟨_, appendByte_eq (s := { t with wireIn := queue, timeouts := t.timeouts.tail }) hroom b⟩

/-- Settles O53: a scalar receive has no way to stop, and a turn of `RECV_PACKET` none from a state of the invariant. -/
theorem operationInProgressNeverStops : Obligations.OperationInProgressNeverStops := by
  intro s hinv hc hbusy
  match ha : s.activity with
  | .idle => exact absurd ha hbusy
  | .scalar w got => exact ⟨_, step_scalar hc ha⟩
  | .packet who =>
    rw [step_packet hc ha]
    exact packetTurn_next hc (ha ▸ hinv.activity)

end Sys2Proof.Machine
end

section
/-! The host's side of the handshake, Packet by Packet (44_handshake.md R213, R216): an equation for each kind of
response, and what a Packet leaves unchanged. -/

namespace Sys2Proof.Machine

open Sys2Proof Host

/-! The classification, by the tests of R213. -/

theorem classify_nack (seq : Half) (code : Byte) (more : List Byte) (s : State) :
    classify ⟨seq, Cmd.nack, code :: more⟩ s =
      { s with hsErrcode := code, hsReason := .nackCode, hsState := .rejected } := rfl

theorem classify_nack_nil (seq : Half) (s : State) :
    classify ⟨seq, Cmd.nack, []⟩ s = { s with hsReason := .nackEmpty, hsState := .rejected } := rfl

theorem classify_ack_short (seq : Half) {p : List Byte} (h : p.length < 3) (s : State) :
    classify ⟨seq, Cmd.ack, p⟩ s = { s with hsReason := .ackShort, hsState := .rejected } := by
  have hfields : ackFields p = none := if_pos h
  simp only [classify, hfields]
  rfl

theorem classify_ack (seq : Half) (version status id : Byte) (more : List Byte) (s : State) :
    classify ⟨seq, Cmd.ack, version :: status :: id :: more⟩ s =
      if version ≠ s.straps.protocolVersion then
        { s with peerVer := version, peerStatus := status, peerId := id, hsReason := .ackVersion, hsState := .rejected }
      else if status ≠ Code.statusOk then
        { s with peerVer := version, peerStatus := status, peerId := id, hsReason := .ackStatus, hsState := .rejected }
      else
        { s with peerVer := version, peerStatus := status, peerId := id, hsReason := .none, hsState := .accepted } := by
  have hfields : ackFields (version :: status :: id :: more) = some (version, status, id) := rfl
  simp only [classify, hfields]
  rfl

theorem classify_ack_accepted (seq : Half) {version : Byte} (id : Byte) (more : List Byte) {s : State}
    (hv : version = s.straps.protocolVersion) :
    classify ⟨seq, Cmd.ack, version :: Code.statusOk :: id :: more⟩ s =
      { s with
        peerVer := version, peerStatus := Code.statusOk, peerId := id, hsReason := .none, hsState := .accepted } := by
  rw [classify_ack, if_neg (not_not_intro hv), if_neg (not_not_intro rfl)]

theorem classify_other {p : Packet} (hack : p.command ≠ Cmd.ack) (hnack : p.command ≠ Cmd.nack) (s : State) :
    classify p s = { s with hsReason := .unexpectedCmd, hsState := .rejected } := by
  rw [classify, if_neg hnack, if_neg hack]
  rfl

theorem classify_hsErrcode {p : Packet} (hnack : p.command ≠ Cmd.nack) (s : State) :
    (classify p s).hsErrcode = s.hsErrcode := by
  rw [classify, if_neg hnack]
  split
  · split
    · rfl
    · dsimp only
      split
      · rfl
      · split <;> rfl
  · rfl

theorem classify_peer {p : Packet} (hack : p.command ≠ Cmd.ack) (s : State) :
    (classify p s).peerVer = s.peerVer ∧ (classify p s).peerStatus = s.peerStatus ∧
      (classify p s).peerId = s.peerId := by
  rw [classify, if_neg hack]
  split
  · split <;> exact ⟨rfl, rfl, rfl⟩
  · exact ⟨rfl, rfl, rfl⟩

/-! Instructions at a host. -/

theorem exec_awaits {s : State} (h : s.awaits) (i : Instr) : exec i s = .next (classify i.toPacket s) := by
  rw [exec_host h.1, hostReceive_awaiting h.2]

theorem actOn_awaits {s : State} (h : s.awaits) (p : Packet) : actOn p s = .next (classify p s) := by
  rw [actOn_host h.1, hostReceive_awaiting h.2]

/-- A next state means the framed variant, where the Packet is classified or handed to the client. -/
theorem hostReceive_of_exec {i : Instr} {s t : State} (hrole : s.straps.role = .host) (h : exec i s = .next t) :
    t = hostReceive i.toPacket s := by
  cases hv : s.straps.dispatchVariant with
  | raw => rw [exec_raw hv] at h; cases h
  | framed => rw [exec_host ⟨hrole, hv⟩] at h; cases h; rfl

/-- ACK and NACK are in the catalogue. -/
theorem command_ne_of_ofPacket_none {r : Role} {p : Packet} (h : Instr.ofPacket r p = none) :
    p.command ≠ Cmd.ack ∧ p.command ≠ Cmd.nack := by
  obtain ⟨seq, cmd, payload⟩ := p
  constructor
  · rintro rfl
    cases h.symm.trans (ofPacket_toPacket r (.ack seq payload) rfl)
  · rintro rfl
    cases h.symm.trans (ofPacket_toPacket r (.nack seq payload) rfl)

/-- Settles O23: in response position the Packet is classified, by the equation of its kind. -/
theorem hostClassifiesTheResponse : Obligations.HostClassifiesTheResponse := by
  intro s seq h
  refine ⟨fun code more => ?nack, ?nackEmpty, fun p hp => ?short, fun version status id more => ?ack,
    fun i hack hnack => ?other, fun p hp => ?unassigned⟩
  case nack => exact (exec_awaits h _).trans (congrArg _ (classify_nack seq code more s))
  case nackEmpty => exact (exec_awaits h _).trans (congrArg _ (classify_nack_nil seq s))
  case short => exact (exec_awaits h _).trans (congrArg _ (classify_ack_short seq hp s))
  case ack => exact (exec_awaits h _).trans (congrArg _ (classify_ack seq version status id more s))
  case other => rw [exec_awaits h, classify_other hack hnack]
  case unassigned =>
    obtain ⟨hack, hnack⟩ := command_ne_of_ofPacket_none hp
    rw [actOn_awaits h, classify_other hack hnack]

/-- Settles O27: every instruction at a host is its Packet, and outside response position a Packet is the client's. -/
theorem hostHandsThePacketToItsClient : Obligations.HostHandsThePacketToItsClient := by
  intro i s h
  rw [exec_host h.1, hostReceive_idle h.2]

/-- Settles O46: the instruction is its Packet, which is classified in response position and the client's result outside
it. -/
theorem instructionFrameAtAHost : Obligations.InstructionFrameAtAHost := by
  intro i s t hrole h
  obtain rfl := hostReceive_of_exec hrole h
  refine ⟨fun a n => ?buffer, ?fields, fun hrest => ?rest, fun hawaits => ?awaits⟩
  case buffer =>
    obtain ⟨_, _, _, _, _, _, _, heq⟩ := hostReceive_fields i.toPacket s
    rw [heq]
  case fields =>
    obtain ⟨_, _, _, _, _, _, _, heq⟩ := hostReceive_fields i.toPacket s
    rw [heq]
  case rest => rw [hostReceive_idle hrest]
  case awaits =>
    rw [hostReceive_awaiting hawaits]
    obtain ⟨_, _, _, _, _, _, hout, heq, -⟩ := classify_cases i.toPacket s
    exact ⟨by rw [heq], by rw [heq]; exact hout, fun hnack => classify_hsErrcode hnack s,
      fun hack => classify_peer hack s⟩

end Sys2Proof.Machine
end

section
/-! The device's side of the handshake (44_handshake.md R217 to R220): the HELLO handler and the closed gate. -/

namespace Sys2Proof.Machine

open Sys2Proof Host

theorem devPollPacket_hello (seq : Half) (p : List Byte) (s : State) :
    devPollPacket ⟨seq, Cmd.hello, p⟩ s = handleHello seq p s := if_pos rfl

/-- The gate comes before the table (45_dispatcher.md R250). -/
theorem devPollPacket_closed {p : Packet} {s : State} (hc : p.command ≠ Cmd.hello) (hclosed : s.hsLatch = false) :
    devPollPacket p s = s := by
  rw [devPollPacket, if_neg hc, if_pos hclosed]

theorem exec_hello_device {s : State} (h : s.framedDevice) (seq : Half) (p : List Byte) :
    exec (.hello seq p) s = .next (handleHello seq p s) := by
  rw [exec_device h.1 h.2]
  exact congrArg _ (devPollPacket_hello seq p s)

/-- A version that is the device's own opens the gate and is acknowledged. -/
theorem handleHello_match (seq : Half) {p : List Byte} {s : State}
    (h : helloVersion p = some s.straps.protocolVersion) :
    handleHello seq p s =
      State.sent seq Cmd.ack [s.straps.protocolVersion, Code.statusOk, s.straps.deviceId]
        { s with
          peerVersion := (helloVersion p).getD s.peerVersion
          peerCaps := (helloCaps p).getD s.peerCaps
          hsLatch := true } :=
  (if_pos h).trans (sendAck_eq seq { recordHello p s with hsLatch := true })

/-- Any other version, or none, is answered NACK [0xA2], the gate as it was. -/
theorem handleHello_mismatch (seq : Half) {p : List Byte} {s : State}
    (h : helloVersion p ≠ some s.straps.protocolVersion) :
    handleHello seq p s =
      State.sent seq Cmd.nack [Code.versionMismatch]
        { s with
          peerVersion := (helloVersion p).getD s.peerVersion
          peerCaps := (helloCaps p).getD s.peerCaps } :=
  (if_neg h).trans (sendNack_eq seq (recordHello p s))

theorem Instr.command_ne_hello {i : Instr} (h : ∀ seq p, i ≠ .hello seq p) : i.toPacket.command ≠ Cmd.hello := by
  cases i with
  | hello seq p => exact absurd rfl (h seq p)
  | _ => dsimp only [Instr.toPacket]; decide

/-- Settles O28: HELLO is recognised before the gate, and its handler compares the versions. -/
theorem helloHandler : Obligations.HelloHandler := by
  intro s seq p h
  refine (exec_hello_device h seq p).trans (congrArg _ ?_)
  rw [List.head?_eq_getElem?]
  split
  · next hv => exact handleHello_match seq hv
  · next hv => exact handleHello_mismatch seq hv

/-- Settles O31: the handler reads the version, and the capability byte goes into `PEER_CAPS` only. -/
theorem capabilityByteHasNoOtherEffect : Obligations.CapabilityByteHasNoOtherEffect := by
  intro s seq version caps caps' more h
  by_cases hv : helloVersion (version :: caps :: more) = some s.straps.protocolVersion
  · have hexec := fun c =>
      (exec_hello_device h seq (version :: c :: more)).trans (congrArg _ (handleHello_match seq hv))
    exact ⟨_, hexec caps, rfl, hexec caps'⟩
  · have hexec := fun c =>
      (exec_hello_device h seq (version :: c :: more)).trans (congrArg _ (handleHello_mismatch seq hv))
    exact ⟨_, hexec caps, rfl, hexec caps'⟩

/-- Settles O29: what is not HELLO meets the gate before the routing table. -/
theorem closedGateDropsEveryCommandButHello : Obligations.ClosedGateDropsEveryCommandButHello := by
  intro s ⟨hrole, hframed, hclosed⟩
  refine ⟨fun i hi => ?instruction, fun p hp => ?packet⟩
  case instruction => rw [exec_device hrole hframed, devPollPacket_closed (Instr.command_ne_hello hi) hclosed]
  case packet => rw [actOn_device hrole hframed, devPollPacket_closed hp hclosed]

end Sys2Proof.Machine
end

section
/-! An attempt of the handshake, from its start to what follows it (44_handshake.md R211, R212, R215). -/

namespace Sys2Proof.Machine

open Sys2Proof Host

/-- The HELLO of an attempt is a `SEND_PACKET`, and the response is awaited. -/
theorem beginAttempt_sent (seq : Half) (caps : Byte) (retry : Option Retry) (s : State) :
    beginAttempt seq caps retry s =
      State.sent seq Cmd.hello [s.straps.protocolVersion, caps]
        { s with
          hsReason := .none
          hsState := .awaitingResponse
          activity := .packet (.handshake s.straps.hsRecvAttempts retry) } :=
  beginAttempt_eq seq caps retry s

/-- Attempt `n` of `HS_ESTABLISH` at its beginning: its HELLO is sent and `more` is left of the list. -/
def State.beginsAttempt (n : Nat) (q : Half) (more : List Half) (caps : Byte) (s : State) : State :=
  State.sent q Cmd.hello [s.straps.protocolVersion, caps]
    { s with
      attempt := n
      hsReason := .none
      hsState := .awaitingResponse
      activity := .packet (.handshake s.straps.hsRecvAttempts (some ⟨more, caps⟩)) }

/-- The loop of `HS_ESTABLISH` counts the next attempt, which takes the next value of the list. -/
theorem establishLoop_cons {s : State} (hlt : s.attempt < s.straps.hsMaxAttempts) (q : Half) (more : List Half)
    (caps : Byte) :
    establishLoop ⟨q :: more, caps⟩ s =
      .next (s.beginsAttempt (s.attempt + 1) q more caps) :=
  (if_pos hlt).trans (congrArg Outcome.next (beginAttempt_sent q caps _ { s with attempt := s.attempt + 1 }))

/-! What follows an attempt that has its outcome, an equation for each of the four ways on (R215). -/

theorem afterAttempt_none (s : State) : afterAttempt none s = .next (finish .done s) := rfl

theorem afterAttempt_accepted {s : State} (h : s.hsState = .accepted) (r : Retry) :
    afterAttempt (some r) s = .next (finish .done { s with session := .established }) := if_pos h

theorem afterAttempt_again {s : State} (hst : s.hsState ≠ .accepted) (hlt : s.attempt < s.straps.hsMaxAttempts)
    (q : Half) (more : List Half) (caps : Byte) :
    afterAttempt (some ⟨q :: more, caps⟩) s =
      .next (s.beginsAttempt (s.attempt + 1) q more caps) :=
  (if_neg hst).trans (establishLoop_cons hlt q more caps)

theorem afterAttempt_failed {s : State} (hst : s.hsState ≠ .accepted) (hmax : s.attempt = s.straps.hsMaxAttempts)
    (r : Retry) : afterAttempt (some r) s = .next (finish .done { s with session := .failed }) := by
  rw [afterAttempt, if_neg hst, establishLoop, if_neg hmax.not_lt]

/-- The start of `HS_ESTABLISH` is the top of its loop, before the first attempt. -/
theorem opHsEstablish_cons {s : State} (hrole : s.straps.role = .host) (seq : Half) (more : List Half) (caps : Byte)
    (hlen : more.length + 1 = s.straps.hsMaxAttempts) :
    opHsEstablish (seq :: more) caps s =
      .next (State.beginsAttempt 1 seq more caps { s with session := .none }) := by
  have hmax : 0 < s.straps.hsMaxAttempts := by omega
  simp only [opHsEstablish, hrole]
  exact (if_pos hlen).trans (establishLoop_cons (s := { s with session := .none, attempt := 0 }) hmax seq more caps)

/-- Settles O21: either operation sends its first HELLO at its start. -/
theorem hsAttemptSendsHello : Obligations.HsAttemptSendsHello := by
  intro s later seq caps hrole
  refine ⟨fun h => ?attempt, fun more h hlen => ?establish⟩
  case attempt =>
    rw [step_asks h, startOp, opHsAttempt, hrole, beginAttempt_sent]
  case establish =>
    rw [step_asks h]
    exact opHsEstablish_cons (s := { s with ops := later }) hrole seq more caps hlen

/-! A receive attempt without a response. -/

/-- It uses up one receive of the attempt. -/
theorem step_attempt_timeout {s t u : State} {left : Nat} {retry : Option Retry} (hc : s.configured)
    (ha : s.activity = .packet (.handshake left retry)) (hd : tryDecode s = (none, t)) (hr : recv t = (.timeout, u)) :
    step s = attemptNoPacket left retry (transportError u) := by
  rw [step_packet hc ha, packetTurn_of_timeout hd hr]
  rfl

/-- A `TRY_DECODE` and a `Transport.recv` write neither the straps nor `ATTEMPT`. -/
theorem recv_tryDecode_keeps {s t u : State} {r : Option Packet} {x : Received} (hd : tryDecode s = (r, t))
    (hr : recv t = (x, u)) : u.straps = s.straps ∧ u.attempt = s.attempt := by
  obtain ⟨_, _, _, _, _, _, _, rfl⟩ := tryDecode_eq_with hd
  rcases recv_cases _ with h | ⟨_, _, -, h⟩ <;> cases h.symm.trans hr <;> exact ⟨rfl, rfl⟩

theorem attemptNoPacket_last {left : Nat} (h : left ≤ 1) (retry : Option Retry) (s : State) :
    attemptNoPacket left retry s = afterAttempt retry (timedOut s) := if_pos h

theorem attemptNoPacket_more {left : Nat} (h : 2 ≤ left) (retry : Option Retry) (s : State) :
    attemptNoPacket left retry s = .next { s with activity := .packet (.handshake (left - 1) retry) } :=
  if_neg (by omega)

/-- Settles O24: the `Timeout` uses up a receive; with the last of them the attempt is `TimedOut`, which is not
`Accepted`. -/
theorem attemptWithoutResponse : Obligations.AttemptWithoutResponse := by
  intro s t u left retry hc ha hd hr
  obtain ⟨hstraps, hattempt⟩ := recv_tryDecode_keeps hd hr
  have hnot : (timedOut (transportError u)).hsState ≠ .accepted := HsState.noConfusion
  rw [step_attempt_timeout hc ha hd hr, ← hstraps, ← hattempt]
  refine ⟨fun hleft => ?more, fun hleft hretry => ?alone, fun q more caps hleft hretry hlt => ?again,
    fun r hleft hretry hmax => ?failed⟩
  case more => exact attemptNoPacket_more hleft retry _
  case alone => rw [attemptNoPacket_last hleft, hretry]; rfl
  case again => rw [attemptNoPacket_last hleft, hretry]; exact afterAttempt_again hnot hlt q more caps
  case failed => rw [attemptNoPacket_last hleft, hretry]; exact afterAttempt_failed hnot hmax r

end Sys2Proof.Machine
end

section
/-! A step that decodes an instruction (43_transport.md R187, 44_handshake.md R212, R215): what is done with its Packet
is `exec` of it. -/

namespace Sys2Proof.Machine

open Sys2Proof Host

/-- Bytes that decode to an instruction are what `TRY_DECODE` takes, and its result is the instruction's Packet. -/
theorem tryDecode_of_decode {s : State} {r : Role} {i : Instr} {rest : List Byte}
    (h : decode r s.rxbuf = .instr i rest) :
    tryDecode s = (some i.toPacket, (tryDecode s).2) := by
  obtain ⟨p, size, crc, hpass, hof, -⟩ := decode_eq_instr h
  refine Prod.ext ?_ rfl
  rw [tryDecode_fst, scan_accept hpass, (toPacket_ofPacket hof).1]

theorem step_of_decode {s : State} {who : Caller} {r : Role} {i : Instr} {rest : List Byte} (hc : s.configured)
    (ha : s.activity = .packet who) (h : decode r s.rxbuf = .instr i rest) :
    step s = deliver who i.toPacket (tryDecode s).2 := by
  rw [step_packet hc ha, packetTurn_of_some (tryDecode_of_decode h)]

/-- Where an instruction arrives, its Packet is acted on as that instruction (30_encoding.md R111). -/
theorem actOn_toPacket {i : Instr} {s : State} (h : i.arrivesAt s.straps.role = true) :
    actOn i.toPacket s = exec i s := by
  simp only [actOn, ofPacket_toPacket _ i h]

/-- The Packet of an attempt is acted on, and the attempt goes on from its outcome. -/
theorem deliver_handshake {left : Nat} {retry : Option Retry} {p : Packet} {s u : State}
    (h : actOn p (received s) = .next u) : deliver (.handshake left retry) p s = afterAttempt retry u := by
  simp only [deliver, h]

/-- Settles O57: the decoded Packet is delivered as its instruction, and an attempt then goes on from its outcome. -/
theorem hostStepRunsTheDecodedInstruction : Obligations.HostStepRunsTheDecodedInstruction := by
  intro s i rest hc hrole hdecode
  have hfields := tryDecode_fields s
  generalize hu : (tryDecode s).2 = u at hfields
  obtain ⟨hstraps, -, -, -, -, -, -, hattempt, -⟩ := hfields
  have hrole' : u.straps.role = .host := by rw [hstraps, hrole]
  have hexec : actOn i.toPacket (received u) = exec i (received u) := by
    refine actOn_toPacket (s := received u) ?_
    rw [show (received u).straps.role = .host from hrole']
    exact (encode_of_decode hdecode).1
  refine ⟨fun ha => ?client, fun left retry ha => ?attempt⟩
  case client =>
    rw [step_of_decode hc ha hdecode, hu, ← hexec]
    simp only [deliver, hrole']
  case attempt =>
    have hframed : (received u).framedHost := ⟨hrole', hstraps ▸ hc.dispatchVariant_framed⟩
    obtain ⟨t, ht⟩ : ∃ t, exec i (received u) = .next t := ⟨_, exec_host hframed i⟩
    have hstep : step s = afterAttempt retry t := by
      rw [step_of_decode hc ha hdecode, hu, deliver_handshake (hexec.trans ht)]
    obtain ⟨htstraps, -, -, -, -, -, -, -, htattempt, -⟩ := actOn_fields (hexec.trans ht)
    have hs : t.straps = s.straps := htstraps.trans hstraps
    have hn : t.attempt = s.attempt := htattempt.trans hattempt
    rw [hstep, ← hs, ← hn]
    refine ⟨t, ht, fun hretry => ?alone, fun r hretry hacc => ?accepted, fun q more caps hretry hnot hlt => ?again,
      fun r hretry hnot hmax => ?failed⟩
    case alone => rw [hretry, afterAttempt_none]; rfl
    case accepted => rw [hretry, afterAttempt_accepted hacc]; rfl
    case again => rw [hretry]; exact afterAttempt_again hnot hlt q more caps
    case failed => rw [hretry, afterAttempt_failed hnot hmax]; rfl

end Sys2Proof.Machine
end

section
/-! `HS_ESTABLISH` on a line that stays quiet (44_handshake.md R224 (c)): the receives of an attempt are used up one a
step, and each attempt but the last is followed by the next. -/

namespace Sys2Proof.Machine

open Sys2Proof Host

theorem State.configured.one_le_hsMaxAttempts {s : State} (h : s.configured) : 1 ≤ s.straps.hsMaxAttempts := by
  obtain ⟨⟨hmax, -⟩, -⟩ : (1 ≤ s.straps.hsMaxAttempts ∧ 1 ≤ s.straps.hsRecvAttempts) ∧ _ := by
    simpa [Straps.wf] using h.straps_wf
  exact hmax

/-- Nothing is decoded and nothing comes. -/
theorem step_attempt_silent {s : State} {left : Nat} {retry : Option Retry} (hc : s.configured)
    (ha : s.activity = .packet (.handshake left retry)) (hwait : Waiting s.rxbuf) (hquiet : s.wireIn = []) :
    step s = attemptNoPacket left retry { s with pktValid := false, timeouts := s.timeouts.tail, xerr := true } :=
  step_attempt_timeout hc ha (tryDecode_waiting hwait) (recv_nothing (s := { s with pktValid := false }) hquiet)

/-- The state after an attempt that nothing answered; `answers` are the environment's that are still to come. -/
def State.unanswered (answers : List Bool) (retry : Option Retry) (s : State) : State :=
  { s with
    pktValid := false
    timeouts := answers
    xerr := true
    hsState := .timedOut
    hsReason := .noResponse
    activity := .packet (.handshake 1 retry) }

theorem State.unanswered_not_accepted (answers : List Bool) (retry : Option Retry) (s : State) :
    (s.unanswered answers retry).hsState ≠ .accepted := HsState.noConfusion

/-- The receives of an attempt, one a step, and what follows the attempt. -/
theorem run_attempt_silent {s : State} {left : Nat} {retry : Option Retry} (hc : s.configured)
    (ha : s.activity = .packet (.handshake (left + 1) retry)) (hwait : Waiting s.rxbuf) (hquiet : s.wireIn = []) :
    ∃ answers, run (left + 1) s = afterAttempt retry (s.unanswered answers retry) := by
  induction left generalizing s with
  | zero =>
    rw [run_one, step_attempt_silent hc ha hwait hquiet, attemptNoPacket_last le_rfl]
    exact ⟨s.timeouts.tail, by rw [State.unanswered, ← ha]; rfl⟩
  | succ left ih =>
    have hmore := (step_attempt_silent hc ha hwait hquiet).trans (attemptNoPacket_more (by omega) _ _)
    rw [run_step hmore]
    refine ih ?_ rfl hwait hquiet
    exact hc

/-- From `s` the attempts with the sequence numbers `seqs` were made, without a response, and `HS_ESTABLISH` has
failed. -/
structure State.GivesUp (s : State) (seqs : List Half) (caps : Byte) (t : State) : Prop where
  session : t.session = .failed
  hsState : t.hsState = .timedOut
  hsReason : t.hsReason = .noResponse
  attempt : t.attempt = s.straps.hsMaxAttempts
  xerr : t.xerr = true
  pktValid : t.pktValid = false
  activity : t.activity = .idle
  ops : t.ops = s.ops
  rxbuf : t.rxbuf = s.rxbuf
  wireOut : t.wireOut = s.wireOut ++ seqs.flatMap fun q => frameBytes q Cmd.hello [s.straps.protocolVersion, caps]

/-- The attempt in progress and those to come, all without a response. -/
theorem run_establish_silent {s : State} {left : Nat} {more : List Half} {caps : Byte} (hc : s.configured)
    (hleft : 1 ≤ left) (ha : s.activity = .packet (.handshake left (some ⟨more, caps⟩))) (hwait : Waiting s.rxbuf)
    (hquiet : s.wireIn = []) (hbudget : s.attempt + more.length = s.straps.hsMaxAttempts) :
    ∃ t, run (left + more.length * s.straps.hsRecvAttempts) s = .next t ∧ s.GivesUp more caps t := by
  induction more generalizing s left with
  | nil =>
    obtain ⟨k, rfl⟩ := Nat.exists_eq_add_of_le' hleft
    obtain ⟨answers, hrun⟩ := run_attempt_silent hc ha hwait hquiet
    rw [afterAttempt_failed (s.unanswered_not_accepted _ _) hbudget] at hrun
    rw [List.length_nil, Nat.zero_mul, Nat.add_zero, hrun]
    refine ⟨_, rfl, ?_⟩
    constructor
    case attempt => exact hbudget
    case wireOut => exact (List.append_nil _).symm
    all_goals rfl
  | cons q more ih =>
    obtain ⟨k, rfl⟩ := Nat.exists_eq_add_of_le' hleft
    rw [List.length_cons] at hbudget ⊢
    have hlt : s.attempt < s.straps.hsMaxAttempts := by omega
    obtain ⟨answers, hrun⟩ := run_attempt_silent hc ha hwait hquiet
    rw [afterAttempt_again (s.unanswered_not_accepted _ _) hlt] at hrun
    rw [Nat.succ_mul, Nat.add_comm (_ * _), run_add hrun]
    obtain ⟨t, ht, hend⟩ := ih (s := (s.unanswered answers _).beginsAttempt (s.attempt + 1) q more caps) hc
      hc.one_le_hsRecvAttempts rfl hwait hquiet ((Nat.add_right_comm s.attempt 1 more.length).trans hbudget)
    exact ⟨t, ht, { hend with wireOut := hend.wireOut.trans (List.append_assoc _ _ _) }⟩

/-- Settles O25: the start sends the first HELLO, and every attempt goes unanswered. -/
theorem silentLineFailsAfterTheAttemptBudget : Obligations.SilentLineFailsAfterTheAttemptBudget := by
  intro s seqs caps later h hrole hlen hwait hquiet
  have hc : s.configured := h.1
  cases seqs with
  | nil => exact absurd hc.one_le_hsMaxAttempts (by rw [← hlen]; decide)
  | cons q more =>
    rw [List.length_cons] at hlen
    have hstart := (step_asks h).trans (opHsEstablish_cons (s := { s with ops := later }) hrole q more caps hlen)
    have hsteps : 1 + s.straps.hsMaxAttempts * s.straps.hsRecvAttempts =
        s.straps.hsRecvAttempts + more.length * s.straps.hsRecvAttempts + 1 := by rw [← hlen]; ring
    rw [hsteps, run_step hstart]
    obtain ⟨t, ht, hend⟩ := run_establish_silent
      (s := State.beginsAttempt 1 q more caps { s with ops := later, session := .none }) hc hc.one_le_hsRecvAttempts rfl
      hwait hquiet ((Nat.add_comm 1 more.length).trans hlen)
    exact ⟨t, ht, hend.session, hend.hsState, hend.hsReason, hend.attempt, hend.xerr, hend.pktValid, hend.activity,
      hend.ops, hend.rxbuf, hend.wireOut.trans (List.append_assoc _ _ _)⟩

end Sys2Proof.Machine
end

section
/-! Turns of two joined sides (60_exceptions.md R315): the steps of one side that send nothing are a run of that side
alone, and one exchange is a request and its response. -/

namespace Sys2Proof.Machine

open Sys2Proof Host

/-! Runs of one side. -/

/-- A run that reaches a state has a first step. -/
theorem run_succ_next {n : Nat} {s t : State} (h : run (n + 1) s = .next t) :
    ∃ u, step s = .next u ∧ run n u = .next t := by
  by_cases hs : ∃ u, step s = .next u
  · obtain ⟨u, hu⟩ := hs
    exact ⟨u, hu, (run_step hu).symm.trans h⟩
  · exact absurd h (run_stops (fun u hu => hs ⟨u, hu⟩) t)

/-- What was sent stays sent. -/
theorem run_wireOut {n : Nat} {s t : State} (h : run n s = .next t) : ∃ out, t.wireOut = s.wireOut ++ out := by
  induction n generalizing s with
  | zero => cases h; exact ⟨[], by simp⟩
  | succ n ih =>
    obtain ⟨u, hu, hrun⟩ := run_succ_next h
    obtain ⟨-, ⟨out, hout⟩, -⟩ := strapsStayAndOutputsAreNotRecalled s u hu
    obtain ⟨out', hout'⟩ := ih hrun
    exact ⟨out ++ out', by rw [hout', hout, List.append_assoc]⟩

/-- An idle side that is asked for nothing stays as it is (70_reset_and_hazards.md R331). -/
theorem run_idle {s : State} (hc : s.configured) (ha : s.activity = .idle) (ho : s.ops = []) (n : Nat) :
    run n s = .next s := by
  induction n with
  | zero => rfl
  | succ n ih =>
    have hstep : step s = .next s := by rw [step_of_configured hc, turn, ha, ho]
    rw [run_step hstep, ih]

/-! The two sides. -/

@[simp] theorem Link.side_set (l : Link) (side : Role) (s : State) : (l.set side s).side side = s := by
  cases side <;> rfl

@[simp] theorem Link.set_side (l : Link) (side : Role) : l.set side (l.side side) = l := by
  cases side <;> rfl

@[simp] theorem Link.set_set (l : Link) (side : Role) (s t : State) : (l.set side s).set side t = l.set side t := by
  cases side <;> rfl

/-- A side that has nothing to send adds nothing to the other's queue. -/
theorem Link.carry_of_quiet {l : Link} {side : Role} (h : (l.side side).wireOut = []) : l.carry side = l := by
  obtain ⟨host, device⟩ := l
  cases side with
  | host =>
    have hout : host.wireOut = [] := h
    simp only [Link.carry, Link.set, Link.side, otherSide, hout, List.append_nil]
    rw [← hout]
  | device =>
    have hout : device.wireOut = [] := h
    simp only [Link.carry, Link.set, Link.side, otherSide, hout, List.append_nil]
    rw [← hout]

theorem Link.turn_step {l : Link} {side : Role} {t : State} (h : step (l.side side) = .next t) :
    l.turn (.step side) = .next ((l.set side t).carry side) := by
  simp only [Link.turn, h]

theorem Link.run_cons {l m : Link} {x : LinkTurn} (h : l.turn x = .next m) (later : List LinkTurn) :
    l.run (x :: later) = m.run later := by
  simp only [Link.run, h]

/-- A run that sends nothing is a run of that side alone. -/
theorem Link.run_quiet {n : Nat} {l : Link} {side : Role} {t : State} (h : Machine.run n (l.side side) = .next t)
    (hquiet : t.wireOut = []) (later : List LinkTurn) :
    l.run (List.replicate n (.step side) ++ later) = (l.set side t).run later := by
  induction n generalizing l with
  | zero => cases h; simp
  | succ n ih =>
    obtain ⟨u, hu, hrun⟩ := run_succ_next h
    have huquiet : u.wireOut = [] := by
      obtain ⟨out, hout⟩ := run_wireOut hrun
      exact (List.append_eq_nil_iff.mp (hout.symm.trans hquiet)).1
    rw [List.replicate_succ, List.cons_append, Link.run_cons (Link.turn_step hu),
      Link.carry_of_quiet (by simpa using huquiet), ih (by simpa using hrun), Link.set_set]

/-- One exchange: the host's step sends the request, the device takes it in `a` steps and answers in the next, and the
host takes the response in `b` steps. -/
theorem Link.run_exchange {l : Link} {a b : Nat} {h₁ h₂ d₁ d₂ : State} (hrequest : step l.host = .next h₁)
    (htaken : Machine.run a { l.device with wireIn := l.device.wireIn ++ h₁.wireOut } = .next d₁)
    (hsilent : d₁.wireOut = []) (hanswer : step d₁ = .next d₂)
    (hresponse : Machine.run b { h₁ with wireOut := [], wireIn := h₁.wireIn ++ d₂.wireOut } = .next h₂)
    (hquiet : h₂.wireOut = []) :
    l.run (.step .host :: (List.replicate (a + 1) (.step .device) ++ List.replicate b (.step .host))) =
      .next ⟨h₂, { d₂ with wireOut := [] }⟩ := by
  have hturn := Link.turn_step (l := ⟨{ h₁ with wireOut := [] }, d₁⟩) (side := .device) hanswer
  have hlast := Link.run_quiet
    (l := ⟨{ h₁ with wireOut := [], wireIn := h₁.wireIn ++ d₂.wireOut }, { d₂ with wireOut := [] }⟩) (side := .host)
    hresponse hquiet []
  rw [List.append_nil] at hlast
  rw [Link.run_cons (Link.turn_step (side := .host) hrequest), List.replicate_succ', List.append_assoc,
    Link.run_quiet (side := .device) htaken hsilent]
  exact (Link.run_cons hturn _).trans hlast

end Sys2Proof.Machine
end

section
/-! The handshake over the link (44_handshake.md R224 (a) and (b)): the device takes the HELLO and answers it, the host
takes the answer and classifies it. -/

namespace Sys2Proof.Machine

open Sys2Proof Host

/-- The state after a frame that was all that came: its Packet is held, and both `RXBUF` and the wire are empty. -/
def State.holdingFrame (p : Packet) (s : State) : State :=
  State.holdPacket p
    { s with
      rxbuf := []
      wireIn := []
      pktValid := false
      crcReg := checksum (frameBody p.sequence p.command p.payload) }

section
variable {s : State} {seq : Half} {cmd : Byte} {p : List Byte} (hp : p.length ≤ Config.maxPayload)
  (hempty : s.rxbuf = []) (hw : s.wireIn = frameBytes seq cmd p) (ht : s.delivers)
include hp hempty hw ht

/-- A `RECV_PACKET` takes the bytes of a frame one a step, and its Packet is delivered in the step after them. -/
theorem run_packet_frame {who : Caller} (hc : s.configured) (ha : s.activity = .packet who) :
    ∃ t, run (p.length + 8) s = .next t ∧ t.wireOut = s.wireOut ∧
      step t = deliver who ⟨seq, cmd, p⟩ (s.holdingFrame ⟨seq, cmd, p⟩) := by
  have htaken := run_takes_whole_frame (rest := []) hp hc ha hempty (hw.trans (List.append_nil _).symm) ht
  refine ⟨_, htaken, rfl, step_delivers_frame hp ?_ ?_ rfl⟩
  · exact hc
  · exact ha

/-- A poll starts, takes the bytes of a frame, and acts on its Packet. -/
theorem run_devPoll_frame {later : List Op} (hrole : s.straps.role = .device) (h : s.asks .devPoll later) :
    ∃ t, run (p.length + 9) s = .next t ∧ t.wireOut = s.wireOut ∧
      step t = .next
        (devPollPacket ⟨seq, cmd, p⟩ (received (State.holdingFrame ⟨seq, cmd, p⟩ { s with ops := later }))) := by
  have hc : s.configured := h.1
  have hstart : step s = .next { s with ops := later, activity := .packet .devPoll } := by
    rw [step_asks h]
    simp only [startOp, opDevPoll, hrole]
  obtain ⟨t, hrun, hout, hstep⟩ :=
    run_packet_frame (s := { s with ops := later, activity := .packet .devPoll }) hp hempty hw ht hc rfl
  have hready : (received (State.holdingFrame ⟨seq, cmd, p⟩ { s with ops := later })).framedDevice :=
    ⟨hrole, hc.dispatchVariant_framed⟩
  exact ⟨t, (run_step hstart).trans hrun, hout, hstep.trans (actOn_device hready.1 hready.2 _)⟩

/-- An attempt takes the bytes of a frame; its Packet is the response, which ends the attempt. -/
theorem run_attempt_frame {left : Nat} (hc : s.configured) (hrole : s.straps.role = .host)
    (ha : s.activity = .packet (.handshake left none)) (hawaits : s.hsState = .awaitingResponse) :
    run (p.length + 9) s =
      .next (finish .done (classify ⟨seq, cmd, p⟩ (received (s.holdingFrame ⟨seq, cmd, p⟩)))) := by
  obtain ⟨t, hrun, -, hstep⟩ := run_packet_frame hp hempty hw ht hc ha
  have hready : (received (s.holdingFrame ⟨seq, cmd, p⟩)).awaits := ⟨⟨hrole, hc.dispatchVariant_framed⟩, hawaits⟩
  exact (run_add (b := 1) hrun).trans ((run_one _).trans (hstep.trans (deliver_handshake (actOn_awaits hready _))))

end

/-- The start of a handshake over a quiet link: the host asks for one attempt, the device for one poll, and nothing is
buffered or queued. -/
structure Link.StartsHandshake (l : Link) (seq : Half) (caps : Byte) : Prop where
  hostRole : l.host.straps.role = .host
  deviceRole : l.device.straps.role = .device
  hostAsks : l.host.asks (.hsAttempt seq caps) []
  deviceAsks : l.device.asks .devPoll []
  hostBuffer : l.host.rxbuf = []
  deviceBuffer : l.device.rxbuf = []
  hostQueue : l.host.wireIn = []
  deviceQueue : l.device.wireIn = []
  hostOut : l.host.wireOut = []
  deviceOut : l.device.wireOut = []
  hostDelivers : l.host.delivers
  deviceDelivers : l.device.delivers

/-- The host when it has sent its HELLO and awaits the response. -/
def Link.hostAtHello (l : Link) (seq : Half) (caps : Byte) : State :=
  State.sent seq Cmd.hello [l.host.straps.protocolVersion, caps]
    { l.host with
      ops := []
      hsReason := .none
      hsState := .awaitingResponse
      activity := .packet (.handshake l.host.straps.hsRecvAttempts none) }

/-- The device when it acts on the HELLO. -/
def Link.deviceAtHello (l : Link) (seq : Half) (caps : Byte) : State :=
  received (State.holdingFrame ⟨seq, Cmd.hello, [l.host.straps.protocolVersion, caps]⟩ { l.device with ops := [] })

/-- The host when it classifies the response `p`. -/
def Link.hostAtResponse (l : Link) (seq : Half) (caps : Byte) (p : Packet) : State :=
  received (State.holdingFrame p { l.hostAtHello seq caps with wireOut := [] })

theorem Link.StartsHandshake.hello_sent {l : Link} {seq : Half} {caps : Byte} (h : l.StartsHandshake seq caps) :
    (l.hostAtHello seq caps).wireOut = frameBytes seq Cmd.hello [l.host.straps.protocolVersion, caps] :=
  congrArg (· ++ _) h.hostOut

/-- A classification keeps what the host needs to stay idle in silence. -/
theorem classify_keeps (p : Packet) (s : State) :
    (classify p s).straps = s.straps ∧ (classify p s).ops = s.ops ∧ (classify p s).wireOut = s.wireOut := by
  obtain ⟨_, _, _, _, _, _, -, heq, -⟩ := classify_cases p s
  rw [heq]
  exact ⟨rfl, rfl, rfl⟩

/-- One HELLO and one response: a response of fewer than three bytes leaves the host idle for the turns that are
left. -/
theorem Link.run_handshake {l : Link} {seq : Half} {caps cmd : Byte} {p : List Byte} {d : State}
    (h : l.StartsHandshake seq caps) (hp : p.length ≤ 3)
    (hd : handleHello seq [l.host.straps.protocolVersion, caps] (l.deviceAtHello seq caps) = d)
    (hout : d.wireOut = frameBytes seq cmd p) :
    l.run (.step .host :: (List.replicate 12 (.step .device) ++ List.replicate 12 (.step .host))) =
      .next ⟨finish .done (classify ⟨seq, cmd, p⟩ (l.hostAtResponse seq caps ⟨seq, cmd, p⟩)),
        { d with wireOut := [] }⟩ := by
  have hc : l.host.configured := h.hostAsks.1
  have hrequest : step l.host = .next (l.hostAtHello seq caps) :=
    (hsAttemptSendsHello l.host [] seq caps h.hostRole).1 h.hostAsks
  obtain ⟨t, htaken, hsilent, hstep⟩ := run_devPoll_frame
    (s := { l.device with wireIn := frameBytes seq Cmd.hello [l.host.straps.protocolVersion, caps] })
    (p := [l.host.straps.protocolVersion, caps]) (Nat.le_of_ble_eq_true rfl) h.deviceBuffer rfl h.deviceDelivers
    h.deviceRole h.deviceAsks
  rw [devPollPacket_hello] at hstep
  have hresponse := run_attempt_frame
    (s := { l.hostAtHello seq caps with wireOut := [], wireIn := frameBytes seq cmd p }) (hp.trans (by decide))
    h.hostBuffer rfl h.hostDelivers hc h.hostRole rfl rfl
  obtain ⟨hstraps, hops, hquiet⟩ := classify_keeps ⟨seq, cmd, p⟩ (l.hostAtResponse seq caps ⟨seq, cmd, p⟩)
  refine Link.run_exchange hrequest ?taken (hsilent.trans h.deviceOut) (hstep.trans (congrArg _ hd)) ?response hquiet
  case taken =>
    rw [h.hello_sent, h.deviceQueue, List.nil_append]
    exact htaken
  case response =>
    have hqueue : (l.hostAtHello seq caps).wireIn = [] := h.hostQueue
    rw [hout, hqueue, List.nil_append, show 12 = p.length + 9 + (3 - p.length) by omega, run_add hresponse]
    refine run_idle (s := finish .done (classify _ _)) ?_ rfl hops _
    exact (congrArg configRefusal hstraps).trans hc

/-- Settles O60: the device's answer to the HELLO depends on the versions, and the host classifies that answer. -/
theorem handshakeOverTheLink : Obligations.HandshakeOverTheLink := by
  intro l seq caps hostRole deviceRole hostAsks deviceAsks hostBuffer deviceBuffer hostQueue deviceQueue hostOut
    deviceOut hostDelivers deviceDelivers
  have h : l.StartsHandshake seq caps := ⟨hostRole, deviceRole, hostAsks, deviceAsks, hostBuffer, deviceBuffer,
    hostQueue, deviceQueue, hostOut, deviceOut, hostDelivers, deviceDelivers⟩
  by_cases hv : l.device.straps.protocolVersion = l.host.straps.protocolVersion
  · have hanswer := handleHello_match (s := l.deviceAtHello seq caps) seq
      (p := [l.host.straps.protocolVersion, caps]) (congrArg some hv.symm)
    have hrun := Link.run_handshake (cmd := Cmd.ack)
      (p := [l.device.straps.protocolVersion, Code.statusOk, l.device.straps.deviceId]) h le_rfl hanswer
      (congrArg (· ++ _) h.deviceOut)
    rw [classify_ack_accepted (s := l.hostAtResponse seq caps _) seq _ _ hv] at hrun
    exact ⟨_, hrun, fun _ => ⟨rfl, rfl, hv, rfl, rfl, rfl⟩, fun hne => absurd hv hne⟩
  · have hanswer := handleHello_mismatch (s := l.deviceAtHello seq caps) seq
      (p := [l.host.straps.protocolVersion, caps]) (fun e => hv (Option.some.inj e).symm)
    have hrun := Link.run_handshake h (by decide) hanswer (congrArg (· ++ _) h.deviceOut)
    rw [classify_nack] at hrun
    exact ⟨_, hrun, fun heq => absurd heq hv, fun _ => ⟨rfl, rfl, rfl, rfl⟩⟩

end Sys2Proof.Machine
end

section
/-! What the device sends, as the state after a `SEND_PACKET` (43_transport.md R186, 45_dispatcher.md R254, R264). -/

namespace Sys2Proof.Machine

open Sys2Proof Host

theorem sendAck_sent (seq : Half) (s : State) :
    sendAck seq s = s.sent seq Cmd.ack [s.straps.protocolVersion, Code.statusOk, s.straps.deviceId] :=
  sendAck_eq seq s

theorem sendAckIfSet_sent (seq : Half) (s : State) :
    sendAckIfSet seq s =
      if s.straps.ackSetCommands then
        s.sent seq Cmd.ack [s.straps.protocolVersion, Code.statusOk, s.straps.deviceId]
      else s := by
  rw [sendAckIfSet, sendAck_sent]

/-- A GET that reads one value sends it back as it is. -/
theorem oneValueReply_sent (seq : Half) (cmd : Byte) (e : Event) (s : State) :
    sendPacket seq cmd (bytes32 (draw (call e s)).1) (draw (call e s)).2 =
      State.sent seq cmd (bytes32 (s.coming 0)) { s.drawn 1 with events := s.events ++ [e] } :=
  oneValueReply_eq seq cmd e s

end Sys2Proof.Machine
end

section
/-! The SET commands with the gate open (45_dispatcher.md R254 to R256). -/

namespace Sys2Proof.Machine

open Sys2Proof Host

theorem handleSetAngleCalibrations_short (seq : Half) {p : List Byte} (h : p.length < 72) (s : State) :
    handleSetAngleCalibrations seq p s = s := if_pos h

theorem handleSetAngleCalibrations_long (seq : Half) {p : List Byte} (h : 72 ≤ p.length) (s : State) :
    handleSetAngleCalibrations seq p s =
      State.sent seq Cmd.ack [s.straps.protocolVersion, Code.statusOk, s.straps.deviceId]
        { s with events := s.events ++ calibrationCalls p } := by
  rw [handleSetAngleCalibrations_eq, if_neg (Nat.not_lt.mpr h), sendAck_sent]

/-- Settles O33: the handler's calls are those of the 18 channels in their order, and its ACK is sent behind them. -/
theorem setAngleCalibrations : Obligations.SetAngleCalibrations := by
  intro s seq p h
  rw [exec_setAngleCalibrations_open h]
  exact ⟨fun hp => congrArg _ (handleSetAngleCalibrations_short seq hp s),
    fun hp => congrArg _ (handleSetAngleCalibrations_long seq hp s)⟩

theorem handleSetTargetAngle_short (seq : Half) {p : List Byte} (h : p.length < 3) (s : State) :
    handleSetTargetAngle seq p s = s := if_pos h

/-- With its three bytes the handler looks at the channel only. -/
theorem handleSetTargetAngle_cons (seq : Half) (channel lo hi : Byte) (more : List Byte) (s : State) :
    handleSetTargetAngle seq (channel :: lo :: hi :: more) s =
      if 18 ≤ channel.toNat then s
      else sendAckIfSet seq { s with events := s.events ++ [.setTarget channel (le16 lo hi)] } := by
  have hlength : ¬ (channel :: lo :: hi :: more).length < 3 := by simp
  rw [handleSetTargetAngle_eq, if_neg hlength]
  rfl

/-- Settles O34: the length is tested, then the channel; every angle goes to the actuator. -/
theorem setTargetAngle : Obligations.SetTargetAngle := by
  intro s seq p h
  rw [exec_setTargetAngle_open h]
  refine ⟨fun hp => congrArg _ (handleSetTargetAngle_short seq hp s), ?_⟩
  rintro channel lo hi more rfl
  rw [handleSetTargetAngle_cons]
  refine ⟨fun hc => by rw [if_pos hc], fun hc => ?_⟩
  rw [if_neg (Nat.not_le.mpr hc), sendAckIfSet_sent]

theorem handleSetPowerRelay_short (seq : Half) {p : List Byte} (h : p.length < 1) (s : State) :
    handleSetPowerRelay seq p s = s := if_pos h

/-- Behind its first byte the handler reads nothing. -/
theorem handleSetPowerRelay_cons (seq : Half) (v : Byte) (more : List Byte) (s : State) :
    handleSetPowerRelay seq (v :: more) s = handleSetPowerRelay seq [v] s := rfl

theorem handleSetPowerRelay_zero (seq : Half) (s : State) :
    handleSetPowerRelay seq [0#8] s = sendAckIfSet seq { s with events := s.events ++ [.relaySet false] } := rfl

theorem handleSetPowerRelay_one (seq : Half) (s : State) :
    handleSetPowerRelay seq [1#8] s = sendAckIfSet seq { s with events := s.events ++ [.relaySet true] } := rfl

theorem handleSetPowerRelay_other (seq : Half) {v : Byte} (h : 2 ≤ v.toNat) (s : State) :
    handleSetPowerRelay seq [v] s = s := by
  have hzero : v ≠ 0#8 := by rintro rfl; exact absurd h (by decide)
  have hone : v ≠ 1#8 := by rintro rfl; exact absurd h (by decide)
  have hflag : relayFlag [v] = none := (if_neg hzero).trans (if_neg hone)
  rw [handleSetPowerRelay_eq, hflag]
  rfl

/-- Settles O35: of the values of the first byte only 0 and 1 are a flag for the relay. -/
theorem setPowerRelay : Obligations.SetPowerRelay := by
  intro s seq p h
  rw [exec_setPowerRelay_open h]
  refine ⟨?empty, ?other, ?flag⟩
  case empty =>
    rintro rfl
    rw [handleSetPowerRelay_short seq (by decide)]
  case other =>
    rintro v more rfl hv
    rw [handleSetPowerRelay_cons, handleSetPowerRelay_other seq hv]
  case flag =>
    rintro v more flag rfl (⟨rfl, rfl⟩ | ⟨rfl, rfl⟩)
    · rw [handleSetPowerRelay_cons, handleSetPowerRelay_zero, sendAckIfSet_sent]
    · rw [handleSetPowerRelay_cons, handleSetPowerRelay_one, sendAckIfSet_sent]

end Sys2Proof.Machine
end

section
/-! The GET commands with the gate open (45_dispatcher.md R257 to R260), and their replies at a device. -/

namespace Sys2Proof.Machine

open Sys2Proof Host

/-- Blocks of one length put end to end: the bytes from a block's start on are the blocks from there on. -/
theorem drop_flatMap_blocks {α : Type} {f : α → List Byte} {n : Nat} (hf : ∀ a, (f a).length = n) (l : List α)
    (k : Nat) : (l.flatMap f).drop (n * k) = (l.drop k).flatMap f := by
  induction l generalizing k with
  | nil => simp
  | cons a l ih =>
    cases k with
    | zero => rfl
    | succ k =>
      rw [List.flatMap_cons, Nat.mul_succ, Nat.add_comm, ← hf a, List.drop_length_add_append, hf a, ih,
        List.drop_succ_cons]

/-- Channel `c` begins at byte `8 * c` of the read-back, its first value before its second (30_encoding.md R102). -/
theorem calibrationReply_drop {c : Nat} (hc : c < 18) (s : State) :
    ∃ rest, (calibrationReply s).drop (8 * c) =
      bytes32 (s.coming (2 * c)) ++ bytes32 (s.coming (2 * c + 1)) ++ rest := by
  have hlt : c < (List.range Config.numChannels).length := by simpa using hc
  rw [calibrationReply, drop_flatMap_blocks (fun c => by simp), List.drop_eq_getElem_cons hlt, List.flatMap_cons,
    List.getElem_range]
  exact ⟨_, rfl⟩

theorem calibrationReply_slices {c : Nat} (hc : c < 18) (s : State) :
    slice (calibrationReply s) (8 * c) (8 * c + 3) = bytes32 (s.coming (2 * c)) ∧
      slice (calibrationReply s) (8 * c + 4) (8 * c + 7) = bytes32 (s.coming (2 * c + 1)) := by
  obtain ⟨rest, hrest⟩ := calibrationReply_drop hc s
  have hslice (i j : Nat) : slice (calibrationReply s) (8 * c + i) (8 * c + j) =
      slice (bytes32 (s.coming (2 * c)) ++ bytes32 (s.coming (2 * c + 1)) ++ rest) i j := by
    rw [← hrest, slice_drop]
  exact ⟨hslice 0 3, hslice 4 7⟩

/-- Settles O36: the reply is the read-back of the 18 channels, drawn in their order. -/
theorem getAngleCalibrations : Obligations.GetAngleCalibrations := by
  intro s seq p h
  refine ⟨calibrationReply s, calibrationReply_length s, fun c hc => calibrationReply_slices hc s, ?_⟩
  rw [exec_getAngleCalibrations_open h, handleGetAngleCalibrations_eq]
  rfl

/-- Settles O37: either handler calls the sensor once and sends the value drawn. -/
theorem getCurrentAndGetVoltage : Obligations.GetCurrentAndGetVoltage := by
  intro s seq p h
  rw [exec_getCurrent_open h, exec_getVoltage_open h]
  exact ⟨congrArg _ (oneValueReply_sent seq Cmd.getCurrent .sensorCurrent s),
    congrArg _ (oneValueReply_sent seq Cmd.getVoltage .sensorVoltage s)⟩

theorem handleGetSensor_short (seq : Half) {p : List Byte} (h : p.length < 1) (s : State) :
    handleGetSensor seq p s = s := if_pos h

theorem handleGetSensor_cons (seq : Half) (channel : Byte) (more : List Byte) (s : State) :
    handleGetSensor seq (channel :: more) s =
      State.sent seq Cmd.getSensor (bytes32 (s.coming 0))
        { s.drawn 1 with events := s.events ++ [.sensorRead channel] } := by
  have hlength : ¬ (channel :: more).length < 1 := by simp
  rw [handleGetSensor_eq, if_neg hlength]
  exact oneValueReply_sent seq Cmd.getSensor (.sensorRead channel) s

/-- Settles O38: a first byte is the channel, whatever it is. -/
theorem getSensor : Obligations.GetSensor := by
  intro s seq h
  rw [exec_getSensor_open h]
  refine ⟨congrArg _ (handleGetSensor_short seq (by decide) s), fun channel more => ?_⟩
  rw [exec_getSensor_open h, handleGetSensor_cons]

/-- Settles O39: a reply's arm receives the request's Packet with the request's handler. -/
theorem replyFrameAtADeviceIsTheRequest : Obligations.ReplyFrameAtADeviceIsTheRequest :=
  fun _ _ _ _ => ⟨rfl, rfl, rfl, rfl⟩

end Sys2Proof.Machine
end

section
/-! What a device ignores: codes without a handler (45_dispatcher.md R252, R262), payload bytes beyond those a handler
needs (R253), and everything in the RAW variant (R265). -/

namespace Sys2Proof.Machine

open Sys2Proof Host

/-- A code that is not HELLO's and has no handler does nothing, whatever the gate. -/
theorem devPollPacket_unrouted {p : Packet} (hc : p.command ≠ Cmd.hello) (hr : route p.command = none) (s : State) :
    devPollPacket p s = s := by
  cases hlatch : s.hsLatch with
  | false => exact devPollPacket_closed hc hlatch
  | true => simp only [devPollPacket, if_neg hc, hlatch, hr, Bool.true_eq_false, if_false]

theorem exec_ack_device {s : State} (h : s.framedDevice) (seq : Half) (p : List Byte) :
    exec (.ack seq p) s = .next s := by
  have hc : Cmd.ack ≠ Cmd.hello := by decide
  rw [exec_device h.1 h.2, devPollPacket_unrouted hc rfl]

theorem exec_nack_device {s : State} (h : s.framedDevice) (seq : Half) (p : List Byte) :
    exec (.nack seq p) s = .next s := by
  have hc : Cmd.nack ≠ Cmd.hello := by decide
  rw [exec_device h.1 h.2, devPollPacket_unrouted hc rfl]

/-- Settles O40: the routing table has no handler for ACK and NACK, and none for a code outside the catalogue. -/
theorem deviceIgnoresAckNackAndUnassignedCodes : Obligations.DeviceIgnoresAckNackAndUnassignedCodes :=
  fun _ h => ⟨fun seq p => ⟨exec_ack_device h seq p, exec_nack_device h seq p⟩,
    fun _ hp => actOn_device_unassigned h.1 h.2 hp⟩

theorem byteAt_take {n i : Nat} (h : i < n) (m : List Byte) : byteAt (m.take n) i = byteAt m i := by
  simp only [byteAt, List.getD_eq_getElem?_getD, List.getElem?_take_of_lt h]

/-- The calls read the first 72 bytes. -/
theorem calibrationCalls_take (p : List Byte) : calibrationCalls (p.take 72) = calibrationCalls p := by
  refine List.map_congr_left fun c hc => ?_
  have hlt : c < 18 := List.mem_range.mp hc
  simp only [minPulse, maxPulse, payloadU16]
  rw [byteAt_take (by omega), byteAt_take (by omega), byteAt_take (by omega), byteAt_take (by omega)]

theorem handleSetAngleCalibrations_take (seq : Half) {p : List Byte} (h : 72 ≤ p.length) (s : State) :
    handleSetAngleCalibrations seq (p.take 72) s = handleSetAngleCalibrations seq p s := by
  have htake : 72 ≤ (p.take 72).length := by rw [List.length_take, Nat.min_eq_left h]
  rw [handleSetAngleCalibrations_long seq htake, handleSetAngleCalibrations_long seq h, calibrationCalls_take]

theorem handleSetTargetAngle_take (seq : Half) {p : List Byte} (h : 3 ≤ p.length) (s : State) :
    handleSetTargetAngle seq (p.take 3) s = handleSetTargetAngle seq p s := by
  match p, h with
  | channel :: lo :: hi :: more, _ =>
    rw [handleSetTargetAngle_cons]
    exact handleSetTargetAngle_cons seq channel lo hi [] s

theorem handleSetPowerRelay_take (seq : Half) {p : List Byte} (h : 1 ≤ p.length) (s : State) :
    handleSetPowerRelay seq (p.take 1) s = handleSetPowerRelay seq p s := by
  match p, h with
  | v :: more, _ => exact (handleSetPowerRelay_cons seq v more s).symm

theorem handleGetSensor_take (seq : Half) {p : List Byte} (h : 1 ≤ p.length) (s : State) :
    handleGetSensor seq (p.take 1) s = handleGetSensor seq p s := by
  match p, h with
  | channel :: more, _ =>
    rw [handleGetSensor_cons]
    exact handleGetSensor_cons seq channel [] s

/-- A command whose handler does nothing with fewer than `n` bytes, and with `n` or more what it does with the first
`n`. -/
theorem lengthPolicy_of_handler {command : List Byte → Instr} {handler : List Byte → State} {n : Nat} {p : List Byte}
    {s : State} (hexec : ∀ q, exec (command q) s = .next (handler q)) (hshort : p.length < n → handler p = s)
    (htake : n ≤ p.length → handler (p.take n) = handler p) :
    (p.length < n → exec (command p) s = .next s) ∧
      (n ≤ p.length → exec (command p) s = exec (command (p.take n)) s) :=
  ⟨fun hp => by rw [hexec, hshort hp], fun hp => by rw [hexec, hexec, htake hp]⟩

/-- Settles O41: a handler with too few bytes ends at once, and one with enough reads no byte behind them; the three
GET handlers without an operand read none. -/
theorem payloadLengthPolicy : Obligations.PayloadLengthPolicy := by
  intro s seq p command needed h hmem
  simp only [List.mem_cons, List.not_mem_nil, or_false, Prod.mk.injEq] at hmem
  rcases hmem with
    ⟨rfl, rfl⟩ | ⟨rfl, rfl⟩ | ⟨rfl, rfl⟩ | ⟨rfl, rfl⟩ | ⟨rfl, rfl⟩ | ⟨rfl, rfl⟩ | ⟨rfl, rfl⟩
  · exact lengthPolicy_of_handler (exec_setAngleCalibrations_open h seq)
      (fun hp => handleSetAngleCalibrations_short seq hp s) (fun hp => handleSetAngleCalibrations_take seq hp s)
  · exact lengthPolicy_of_handler (exec_setTargetAngle_open h seq)
      (fun hp => handleSetTargetAngle_short seq hp s) (fun hp => handleSetTargetAngle_take seq hp s)
  · exact lengthPolicy_of_handler (exec_setPowerRelay_open h seq)
      (fun hp => handleSetPowerRelay_short seq hp s) (fun hp => handleSetPowerRelay_take seq hp s)
  · exact lengthPolicy_of_handler (exec_getAngleCalibrations_open h seq)
      (fun hp => absurd hp (Nat.not_lt_zero _)) (fun _ => rfl)
  · exact lengthPolicy_of_handler (exec_getCurrent_open h seq)
      (fun hp => absurd hp (Nat.not_lt_zero _)) (fun _ => rfl)
  · exact lengthPolicy_of_handler (exec_getVoltage_open h seq)
      (fun hp => absurd hp (Nat.not_lt_zero _)) (fun _ => rfl)
  · exact lengthPolicy_of_handler (exec_getSensor_open h seq)
      (fun hp => handleGetSensor_short seq hp s) (fun hp => handleGetSensor_take seq hp s)

theorem step_raw {s : State} (hwf : s.straps.wf = true) (hv : s.straps.dispatchVariant = .raw) :
    step s = .refused .rawVariant := by
  have hrefusal : configRefusal s.straps = some .rawVariant := by rw [configRefusal, if_pos hwf, hv]
  rw [step, hrefusal]

/-- Settles O43: the configuration is refused before any turn, and an instruction before its handler. -/
theorem rawVariantIsRefused : Obligations.RawVariantIsRefused :=
  fun _ hv => ⟨fun hwf => step_raw hwf hv, exec_raw hv⟩

end Sys2Proof.Machine
end

section
/-! The poll of a device (45_dispatcher.md R250, R251): its start, what each turn gives, and the instruction it runs. -/

namespace Sys2Proof.Machine

open Sys2Proof Host

theorem tryDecode_framedDevice {s t : State} {r : Option Packet} (h : s.framedDevice) (hd : tryDecode s = (r, t)) :
    t.framedDevice := by
  obtain ⟨_, _, _, _, _, _, _, rfl⟩ := tryDecode_eq_with hd
  exact h

/-- The Packet of a poll meets HELLO, the gate and the routing table. -/
theorem deliver_devPoll {s : State} (h : s.framedDevice) (p : Packet) :
    deliver .devPoll p s = .next (devPollPacket p (received s)) :=
  actOn_device (s := received s) h.1 h.2 p

/-- Settles O42: a Packet is delivered to the poll, and the turns without one are those of every `RECV_PACKET`. -/
theorem devPollFollowsTheRoutingTable : Obligations.DevPollFollowsTheRoutingTable := by
  intro s hrole
  refine ⟨fun later h => ?start, fun hc ha => ⟨fun p t hd => ?packet, fun t u hd hr => ?timeout,
    fun t b u hd hr => ?byte⟩⟩
  case start =>
    rw [step_asks h, startOp, opDevPoll, hrole]
  case packet =>
    rw [step_packet hc ha, packetTurn_of_some hd]
    exact deliver_devPoll (tryDecode_framedDevice ⟨hrole, hc.dispatchVariant_framed⟩ hd) p
  case timeout =>
    rw [step_packet hc ha, packetTurn_of_timeout hd hr]
    rfl
  case byte =>
    obtain ⟨-, hbyte, -⟩ := recvPacketLoop s
    exact hbyte .devPoll t b u hc ha hd hr

/-- The holding registers present the Packet they took (10_state.md R24). -/
theorem heldPacket_holdPacket {p : Packet} (h : p.payload.length ≤ Config.maxPayload) (s : State) :
    (s.holdPacket p).heldPacket = some p := by
  have hlength : (BitVec.ofNat 8 p.payload.length).toNat = p.payload.length := by
    rw [BitVec.toNat_ofNat, Nat.mod_eq_of_lt (by unfold Config.maxPayload at h; omega)]
  rw [State.heldPacket, State.holdPacket_pktValid, if_pos rfl, State.holdPacket_pktSeq, State.holdPacket_pktCmd,
    State.holdPacket_pktPlen, State.holdPacket_pktPayload, hlength, List.take_left]

/-- What a `TRY_DECODE` of bytes that decode to an instruction leaves: the bytes behind the frame, and its Packet. -/
theorem tryDecode_of_decode_leaves {s : State} {r : Role} {i : Instr} {rest : List Byte}
    (h : decode r s.rxbuf = .instr i rest) :
    (tryDecode s).2.rxbuf = rest ∧ (tryDecode s).2.heldPacket = some i.toPacket := by
  obtain ⟨-, f, hf, hbuf⟩ := encode_of_decode h
  obtain ⟨hlen, rfl⟩ := encodeFrame_eq_some.mp hf
  rw [tryDecode_frameBytes hbuf hlen]
  exact ⟨rfl, heldPacket_holdPacket hlen _⟩

/-- Settles O56: the Packet is delivered to the poll, which acts on it as the instruction that arrives at a device. -/
theorem pollStepRunsTheDecodedInstruction : Obligations.PollStepRunsTheDecodedInstruction := by
  intro s i rest hc hrole ha hdecode
  refine ⟨?_, tryDecode_of_decode_leaves hdecode⟩
  obtain ⟨harrives, -⟩ := encode_of_decode hdecode
  obtain ⟨hrole', -⟩ :=
    tryDecode_framedDevice ⟨hrole, hc.dispatchVariant_framed⟩ (tryDecode_of_decode hdecode)
  rw [step_of_decode hc ha hdecode, deliver]
  exact actOn_toPacket (s := received (tryDecode s).2) (hrole'.symm ▸ harrives)

end Sys2Proof.Machine
end

section
/-! What every instruction at a device sends, and what it leaves unchanged (45_dispatcher.md R250, R263,
10_state.md R25, R26): read off the one form of all handlers. -/

namespace Sys2Proof.Machine

open Sys2Proof Host

/-- Settles O44: the handlers' one form, its response or none. -/
theorem atMostOneResponseWithTheRequestsSequence : Obligations.AtMostOneResponseWithTheRequestsSequence := by
  intro i s h
  obtain ⟨_, out, _, _, _, _, _, calls, sends, heq, hcalls, hsent, -⟩ := devPollPacket_handled i.toPacket s
  refine ⟨_, calls, exec_device h.1 h.2 i, hcalls, ?_⟩
  rw [heq]
  obtain ⟨rfl, rfl, -⟩ | ⟨cmd, payload, rfl, hlen, hcmd, rfl, -⟩ := hsent
  · exact .inl ⟨List.append_nil _, List.append_nil _⟩
  · exact .inr ⟨cmd, payload, hlen, hcmd, rfl, by rw [frameBytes_length]⟩

/-- A next state means the framed variant, where the Packet is routed. -/
theorem devPollPacket_of_exec {i : Instr} {s t : State} (hrole : s.straps.role = .device) (h : exec i s = .next t) :
    t = devPollPacket i.toPacket s := by
  cases hv : s.straps.dispatchVariant with
  | raw => rw [exec_raw hv] at h; cases h
  | framed => rw [exec_device hrole hv] at h; cases h; rfl

/-- Settles O45: the handlers' one form names the fields it writes. -/
theorem instructionFrameAtADevice : Obligations.InstructionFrameAtADevice := by
  intro i s t hrole h
  obtain rfl := devPollPacket_of_exec hrole h
  obtain ⟨crc, out, _, _, _, _, _, calls, sends, heq, -, hsent, -, -, hother, hdraws⟩ :=
    devPollPacket_handled i.toPacket s
  have hcrc : out = [] → crc = s.crcReg := by
    rintro rfl
    obtain ⟨-, -, hkept⟩ | ⟨_, payload, -, -, -, hframe, -⟩ := hsent
    · exact hkept
    · exact absurd (congrArg List.length hframe) (by simp)
  rw [heq]
  exact ⟨rfl, rfl, fun _ _ => rfl, rfl, rfl, rfl, rfl, rfl, rfl, rfl, rfl, rfl, rfl, rfl, rfl, rfl, rfl, rfl, rfl,
    rfl, rfl, rfl, ⟨out, rfl, hcrc⟩, ⟨calls ++ sends, List.append_assoc _ _ _⟩,
    fun hne => hother (Instr.command_ne_hello hne), hdraws⟩

end Sys2Proof.Machine
end

section
/-! What a step of one side does to the link (60_exceptions.md R315, 20_memory.md R57): each side's state is a place of
its own, and only what is carried over the wire goes from one to the other. -/

namespace Sys2Proof.Machine

open Sys2Proof Host

/-- Replacing one side's state leaves the other side as it was. -/
@[simp] theorem Link.side_otherSide_set (l : Link) (side : Role) (s : State) :
    (l.set side s).side (otherSide side) = l.side (otherSide side) := by
  cases side <;> rfl

@[simp] theorem Link.side_set_otherSide (l : Link) (side : Role) (s : State) :
    (l.set (otherSide side) s).side side = l.side side := by
  cases side <;> rfl

/-- The sender keeps its state, with nothing left to carry. -/
theorem Link.carry_side (l : Link) (side : Role) :
    (l.carry side).side side = { l.side side with wireOut := [] } := by
  rw [Link.carry, Link.side_set_otherSide, Link.side_set]

/-- The receiver gets the bytes behind what it had queued, and nothing else. -/
theorem Link.carry_otherSide (l : Link) (side : Role) :
    (l.carry side).side (otherSide side) =
      { l.side (otherSide side) with
        wireIn := (l.side (otherSide side)).wireIn ++ (l.side side).wireOut } := by
  rw [Link.carry, Link.side_set]

/-- The converse of `Link.turn_step`: a turn of a side goes on only when that instance's own step does. -/
theorem Link.step_of_turn {l m : Link} {side : Role} (h : l.turn (.step side) = .next m) :
    ∃ t, step (l.side side) = .next t ∧ m = (l.set side t).carry side := by
  cases hstep : step (l.side side) with
  | next t =>
    rw [Link.turn_step hstep] at h
    cases h
    exact ⟨t, rfl, rfl⟩
  | fault f => simp [Link.turn, hstep] at h
  | refused r => simp [Link.turn, hstep] at h

/-- Settles O59: the turn is that side's step, and the carrying adds to the other's queue alone. -/
theorem sidesShareNothingButTheWire : Obligations.SidesShareNothingButTheWire := by
  intro l m side h
  obtain ⟨t, hstep, rfl⟩ := Link.step_of_turn h
  refine ⟨t, hstep, ?sender, ?receiver⟩
  case sender => rw [Link.carry_side, Link.side_set]
  case receiver => rw [Link.carry_otherSide, Link.side_set, Link.side_otherSide_set]

end Sys2Proof.Machine
end

section
/-! The block with no operation asked for (70_reset_and_hazards.md R331). -/

namespace Sys2Proof.Machine

open Sys2Proof Host

/-- Settles O54: a step is a run of one step, and an idle instance asked for nothing stays as it is over every run. -/
theorem idleBlockDoesNothing : Obligations.IdleBlockDoesNothing := by
  intro s hc ha ho
  calc step s = run 1 s := (run_one s).symm
    _ = .next s := run_idle hc ha ho 1

end Sys2Proof.Machine
end
